-- ==== Sys2Proof/Word.lean ====
section
/-! DEFINITION. The word types of LLC-STDS (00_scope.md R8, R9): bytes on the bus, 16-bit coefficients, 20-bit samples.
Bit 0 of a value is its least significant bit (R9), which is `BitVec`'s own numbering. -/

namespace Sys2Proof

/-- One byte: what one `XFER` moves (`BYTE_W = 8`, R8), a glyph, a digit variable (`DIGIT_W = 8`, R24). -/
abbrev Byte := BitVec 8

/-- A calibration coefficient: 16 bits, read as a signed number by `BitVec.toInt` (R22, R164). -/
abbrev Coef := BitVec 16

/-- A raw sample: 20 bits, read as an unsigned number by `BitVec.toNat` (R23; 90_conflicts.md C3). -/
abbrev Sample := BitVec 20

end Sys2Proof
end

