-- ==== Sys2Proof/Syntax.lean ====
section
/-! DEFINITION. The operations of LLC-STDS: one constructor per row of spec/opcode_table.json (30_encoding.md R101, R109),
and the closed sets of operand values the spec names. -/

namespace Sys2Proof

/-- One row of spec/opcode_table.json each. Operands are as wide as the table gives them; which values an operand may
take is `Instr.wf` (R102). -/
inductive Instr where
  /-- `IDLE`, code `0x00` (R239). -/
  | idle
  /-- `CSA`, code `0x01` (R126). -/
  | csa
  /-- `CSD`, code `0x02` (R127). -/
  | csd
  /-- `LATD`, code `0x03` (R128). -/
  | latd
  /-- `LATA`, code `0x04` (R129). -/
  | lata
  /-- `XFER b`, code `0x05 b` (R121). -/
  | xfer (b : Byte)
  /-- `CONFIG`, code `0x10` (R141). -/
  | config
  /-- `READPAIR c`, code `0x11 c` (R142). -/
  | readpair (c : Byte)
  /-- `READTRIPLE c`, code `0x12 c` (R143). -/
  | readtriple (c : Byte)
  /-- `LOADCAL`, code `0x13` (R160). -/
  | loadcal
  /-- `COMPT`, code `0x20` (R170). -/
  | compt
  /-- `COMPP`, code `0x21` (R180). -/
  | compp
  /-- `PUB k`, code `0x22 k` (R237). -/
  | pub (k : Byte)
  /-- `SHOW g`, code `0x30 g` (R204). -/
  | showg (g : Byte)
  /-- `TICK`, code `0x31` (R208). -/
  | tick
  /-- `TCFG`, code `0x40` (R274). -/
  | tcfg
  /-- `ARM`, code `0x41` (R275). -/
  | arm
  /-- `POLL`, code `0x42` (R233). -/
  | poll
  /-- `BOOT`, code `0x43` (R232). -/
  | boot
  /-- The wire frame `74 43` (R91). -/
  | wireCfg
  /-- The wire frame `88 d0 d1 d2 d3` (R92). -/
  | wirePair88 (d0 d1 d2 d3 : Byte)
  /-- The wire frame `8A d0 d1 d2 d3` (R92). -/
  | wirePair8A (d0 d1 d2 d3 : Byte)
  /-- The wire frame `8E d0 d1 d2 d3` (R92). -/
  | wirePair8E (d0 d1 d2 d3 : Byte)
  /-- The wire frame `FA d0 d1 d2` (R93). -/
  | wireTriFA (d0 d1 d2 : Byte)
  /-- The wire frame `FB d0 d1 d2` (R93). -/
  | wireTriFB (d0 d1 d2 : Byte)
  /-- The wire frame of one glyph byte (R94). -/
  | wireGlyph (g : Byte)
  /-- The tick in scan state 0 (R213). -/
  | scan0
  /-- The tick in scan state 1 (R214). -/
  | scan1
  /-- The tick in scan state 2 (R215). -/
  | scan2
  /-- The tick in scan state 3 (R216). -/
  | scan3
  /-- The tick in scan state 4 (R217). -/
  | scan4
  /-- The tick in scan state 5 (R218). -/
  | scan5
  /-- The tick in scan state 6 (R219). -/
  | scan6
  /-- The tick in scan state 7 (R220). -/
  | scan7
  /-- The tick in scan state 8 (R221). -/
  | scan8
  /-- The tick in scan state 9 (R222). -/
  | scan9
deriving DecidableEq, Repr

/-- The three kinds of encoding of 30_encoding.md, the wire formats split by their delimiter (R90): a byte is read as an
operation code (R101), as a byte of a sensor frame, which `CS` delimits, as a byte of a display frame, which `LATCH`
delimits, or as a value of `SCAN` (R100). -/
inductive Space where
  | code
  | sensorFrame
  | glyphFrame
  | scanState
deriving DecidableEq, Repr

/-- The command bytes of `READPAIR` (R61, R146). -/
inductive PairCmd where
  | c88
  | c8A
  | c8E
deriving DecidableEq, Repr

/-- The command bytes of `READTRIPLE` (R61, R146). -/
inductive TripleCmd where
  | cFA
  | cFB
deriving DecidableEq, Repr

/-- The six digit variables of the `DigitSet` (R24), in the numbering of `PUB`'s operand (R237). -/
inductive Digit where
  /-- `TT`, temperature tens. -/
  | tTens
  /-- `TO`, temperature ones. -/
  | tOnes
  /-- `TH`, temperature tenths. -/
  | tTenths
  /-- `PH`, pressure hundreds. -/
  | pHundreds
  /-- `PT`, pressure tens. -/
  | pTens
  /-- `PO`, pressure ones. -/
  | pOnes
deriving DecidableEq, Repr

end Sys2Proof
end

