-- ==== Sys2Proof/Config.lean ====
section
/-! DEFINITION. What the spec leaves to the implementation (00_scope.md R8) and what it leaves free (R9, `any(N)`).
The `OPEN` parameters are arguments of the model: plain data, carried in `State.params`, so that a claim about every
state is a claim about every parameter value. The free values are constants with no body: no proof sees what they are. -/

namespace Sys2Proof

/-- `BIT_ORDER` (R8, R64): the order of the 8 bits of a byte on the data line. -/
inductive BitOrder where
  | msbFirst
  | lsbFirst
deriving DecidableEq, Repr

/-- The parameters of 00_scope.md R8 whose value the source does not fix. -/
structure Params where
  /-- `GLYPH[0..11]` (R40, R200). -/
  glyph : Vector Byte 12
  /-- `GLYPH_DP` (R41). -/
  glyphDp : Byte
  /-- `DUMMY`: the byte shifted out while a reply byte is read. -/
  dummy : Byte
  /-- `BIT_ORDER` (R64). -/
  bitOrder : BitOrder
  /-- `SCAN_HZ` (R274). -/
  scanHz : Nat
  /-- `TIMER_CLK_HZ` (R274). -/
  timerClkHz : Nat
  /-- `CMP_W`: the width in bits of the compare register (R37). -/
  cmpW : Nat
  /-- `PUBLISH_ORDER` (R238): "any permutation" (R8). That any other six digits run too, unrefused: DESIGN CHOICE, log entry 22. -/
  publishOrder : Vector Digit 6
deriving DecidableEq, Repr

/-- The default glyph table of R203: the spec's own choice, for simulation only. -/
def Config.defaultGlyph : Vector Byte 12 :=
  #v[0x3F#8, 0x06#8, 0x5B#8, 0x4F#8, 0x66#8, 0x6D#8, 0x7D#8, 0x07#8, 0x7F#8, 0x6F#8, 0x73#8, 0x39#8]

/-- The default parameter values of R8, R203 and 95_test_vectors.md: DESIGN CHOICE of the spec, log entry 2. -/
def Params.default : Params where
  glyph := Config.defaultGlyph
  glyphDp := 0x80#8
  dummy := 0x00#8
  bitOrder := .msbFirst
  scanHz := 125
  timerClkHz := 15625
  cmpW := 8
  publishOrder := #v[.tTens, .tOnes, .tTenths, .pHundreds, .pTens, .pOnes]

/-- `PUBLISH_ORDER` is a permutation: six places that name every digit (R238). A premise a claim may name; neither reset nor a
step tests it (log entry 22). -/
abbrev Params.publishesEach (p : Params) : Prop :=
  .tTens ∈ p.publishOrder.toList ∧ .tOnes ∈ p.publishOrder.toList ∧ .tTenths ∈ p.publishOrder.toList ∧
  .pHundreds ∈ p.publishOrder.toList ∧ .pTens ∈ p.publishOrder.toList ∧ .pOnes ∈ p.publishOrder.toList

/-- "the divided count" of R274. -/
def Params.timerCount (p : Params) : Nat := p.timerClkHz / p.scanHz

/-- The two requirements of R274: the frequency is not 0 and the count fits the compare register. -/
abbrev Params.timerOk (p : Params) : Prop :=
  0 < p.scanHz ∧ 1 ≤ p.timerCount ∧ p.timerCount ≤ 2 ^ p.cmpW

/-- What R274 and R238 ask of the parameters of a model instance, as a premise (log entries 16 and 22). -/
abbrev Params.wf (p : Params) : Prop := p.publishesEach ∧ p.timerOk

/-! ### The glyph constraint (R201, R202) -/

/-- The segments of a 7-segment digit and its decimal point (R202). -/
inductive Segment where
  | a | b | c | d | e | f | g | dp
deriving DecidableEq, Repr

/-- The lit segments of each glyph of the table (R202, general knowledge G1). -/
def Config.segments : Vector (List Segment) 12 := #v[
  [.a, .b, .c, .d, .e, .f], [.b, .c], [.a, .b, .d, .e, .g], [.a, .b, .c, .d, .g],
  [.b, .c, .f, .g], [.a, .c, .d, .f, .g], [.a, .c, .d, .e, .f, .g], [.a, .b, .c],
  [.a, .b, .c, .d, .e, .f, .g], [.a, .b, .c, .d, .f, .g], [.a, .b, .e, .f, .g], [.a, .d, .e, .f]]

/-- The lit segments of the decimal-point-only glyph of scan state 2 (R202, R41): the point alone, outside the table
(90_conflicts.md C8). -/
def Config.pointSegments : List Segment := [.dp]

/-- `SEGMAP` (R201): which bit drives which segment, and whether a 1 lights it. -/
structure SegMap where
  a : Fin 8
  b : Fin 8
  c : Fin 8
  d : Fin 8
  e : Fin 8
  f : Fin 8
  g : Fin 8
  dp : Fin 8
  litIsOne : Bool
deriving DecidableEq, Repr

/-- The bit a segment is assigned to. -/
def SegMap.bit (m : SegMap) : Segment → Fin 8
  | .a => m.a | .b => m.b | .c => m.c | .d => m.d | .e => m.e | .f => m.f | .g => m.g | .dp => m.dp

/-- The assignment is injective (R201). -/
abbrev SegMap.injective (m : SegMap) : Prop :=
  [m.a, m.b, m.c, m.d, m.e, m.f, m.g, m.dp].Nodup

/-- The byte that shows a set of segments under an assignment. -/
def SegMap.encode (m : SegMap) (lit : List Segment) : Byte :=
  let on := lit.foldl (fun v x => v ||| (1#8 <<< (m.bit x).val)) 0#8
  if m.litIsOne then on else ~~~on

/-- The assignment of R203's default table: bit 0 is `a`, bit 7 is `dp`, 1 lights. -/
def SegMap.default : SegMap := ⟨0, 1, 2, 3, 4, 5, 6, 7, true⟩

/-- The one constraint the source puts on the glyph values (R201): some injective assignment encodes the digits. A premise a
claim may name; a table that fails it runs too (log entry 22). -/
def Params.standardGlyphs (p : Params) : Prop :=
  ∃ m : SegMap, m.injective ∧ ∀ i : Fin 10, p.glyph[i.val] = m.encode Config.segments[i.val]

/-! ### Free values -/

/-- `any(8)` (R9): the byte of the n-th free draw. Nothing constrains it (log entry 4). -/
opaque Config.anyByte : Nat → Byte

/-- Whether the environment's n-th free choice of a move is a compare-match event (R241: "when compare-matches arrive").
Nothing constrains it (log entry 3). -/
opaque Config.freeArrival : Nat → Bool

/-- Whether the environment's n-th free choice after `POLL23` or `IDLE` is an `IDLE` (R239: "the choice is free"). Nothing
constrains it (log entry 3). -/
opaque Config.freeIdle : Nat → Bool

/-- What the environment does at the n-th boundary inside a placed macro whose choices are free (R241): some moves, each a
compare-match event (`true`) or a move of the block (`false`), and then whether only compare-matches come for ever. Nothing
constrains it, so an environment that never lets the macro go on is among its values (log entry 3). -/
opaque Config.freeBoundary : Nat → List Bool × Bool

/-- `REG(c, k)` (R66): reply byte `k` of command `c`, "a value the sensor chooses at that moment"; the first argument is
the moment, the number of the draw. Nothing constrains it (log entry 5). -/
opaque Config.sensorReg : Nat → Byte → Nat → Byte

end Sys2Proof
end

