-- ==== Sys2Proof/WellFormed.lean ====
section
/-! DEFINITION. Which operand values an operation may have (30_encoding.md R102): "a form the hardware never executes; a
model refuses it". `XFER`, `SHOW` and the wire frames take any operand byte. -/

namespace Sys2Proof

/-- `READPAIR`'s operand is one of `0x88, 0x8A, 0x8E` (R102). -/
def pairCommandOk (c : Byte) : Bool := c = 0x88#8 || c = 0x8A#8 || c = 0x8E#8

/-- `READTRIPLE`'s operand is one of `0xFA, 0xFB` (R102). -/
def tripleCommandOk (c : Byte) : Bool := c = 0xFA#8 || c = 0xFB#8

/-- `PUB`'s operand is at most 5 (R102). -/
def digitSelectorOk (k : Byte) : Bool := decide (k.toNat ≤ 5)

/-- Well-formedness of an operation. -/
def Instr.wf : Instr → Bool
  | .readpair c => pairCommandOk c
  | .readtriple c => tripleCommandOk c
  | .pub k => digitSelectorOk k
  | .idle | .csa | .csd | .latd | .lata | .xfer _ | .config | .loadcal | .compt | .compp | .showg _ | .tick => true
  | .tcfg | .arm | .poll | .boot | .wireCfg | .wirePair88 _ _ _ _ | .wirePair8A _ _ _ _ => true
  | .wirePair8E _ _ _ _ | .wireTriFA _ _ _ | .wireTriFB _ _ _ | .wireGlyph _ => true
  | .scan0 | .scan1 | .scan2 | .scan3 | .scan4 | .scan5 | .scan6 | .scan7 | .scan8 | .scan9 => true

end Sys2Proof
end

