-- ==== Sys2Proof/Decode.lean ====
section
/-! DEFINITION. The decoder of 30_encoding.md R102 (operation codes), R90 to R94 and R106 (wire frames) and R100 (scan
states), total on any bytes and rejecting by name; the encoder, written from the same tables; and the table words of
spec/opcode_table.json. Which of the four spaces a byte string is read in is the reader's to say (log entry 7). -/

namespace Sys2Proof

/-- Why a byte string spells no operation. -/
inductive DecodeError where
  /-- No byte to read. -/
  | empty
  /-- The code is not in R101's table: "A code not in rule R101 spells no operation and a model refuses it" (R102). -/
  | unknownCode (c : Byte)
  /-- The operand byte of a `U1` code is not there (R101). -/
  | missingOperand
  /-- `READPAIR` with an operand outside `0x88, 0x8A, 0x8E` (R102). -/
  | badPairCommand (c : Byte)
  /-- `READTRIPLE` with an operand outside `0xFA, 0xFB` (R102). -/
  | badTripleCommand (c : Byte)
  /-- `PUB` with an operand above 5 (R102). -/
  | badDigitSelector (k : Byte)
  /-- The bytes are no sensor frame the block issues (R103, R106), or a frame cut short. -/
  | unknownFrame
  /-- A `SCAN` value above 9 has no action (R104). -/
  | scanAboveNine (v : Byte)
deriving DecidableEq, Repr

/-- What the decoder answers: an operation and the bytes after it, or a rejection by name. -/
inductive DecodeResult where
  | ok (i : Instr) (rest : List Byte)
  | reject (e : DecodeError)
deriving DecidableEq, Repr

/-- A `U0` code of R101's table. -/
def decodeU0 (c : Nat) : Option Instr :=
  match c with
  | 0x00 => some .idle
  | 0x01 => some .csa
  | 0x02 => some .csd
  | 0x03 => some .latd
  | 0x04 => some .lata
  | 0x10 => some .config
  | 0x13 => some .loadcal
  | 0x20 => some .compt
  | 0x21 => some .compp
  | 0x31 => some .tick
  | 0x40 => some .tcfg
  | 0x41 => some .arm
  | 0x42 => some .poll
  | 0x43 => some .boot
  | _ => none

/-- A `U1` code of R101's table, applied to its operand byte. -/
def decodeU1 (c : Nat) : Option (Byte → Instr) :=
  match c with
  | 0x05 => some .xfer
  | 0x11 => some .readpair
  | 0x12 => some .readtriple
  | 0x22 => some .pub
  | 0x30 => some .showg
  | _ => none

/-- The name of the rejection of an operation whose operand R102 does not allow. -/
def operandError : Instr → DecodeError
  | .readpair c => .badPairCommand c
  | .readtriple c => .badTripleCommand c
  | .pub k => .badDigitSelector k
  | _ => .unknownFrame

/-- R102: read one code byte; a `U1` code takes one operand byte more. -/
def decodeCode : List Byte → DecodeResult
  | [] => .reject .empty
  | c :: r =>
    match decodeU0 c.toNat with
    | some i => .ok i r
    | none =>
      match decodeU1 c.toNat with
      | none => .reject (.unknownCode c)
      | some f =>
        match r with
        | [] => .reject .missingOperand
        | b :: r' => if (f b).wf then .ok (f b) r' else .reject (operandError (f b))

/-- R90 to R93 and R106: a sensor frame, whose first byte gives its length. -/
def decodeSensorFrame : List Byte → DecodeResult
  | [] => .reject .empty
  | c :: r =>
    match c.toNat, r with
    | 0x74, d :: r' => if d = 0x43#8 then .ok .wireCfg r' else .reject .unknownFrame
    | 0x88, d0 :: d1 :: d2 :: d3 :: r' => .ok (.wirePair88 d0 d1 d2 d3) r'
    | 0x8A, d0 :: d1 :: d2 :: d3 :: r' => .ok (.wirePair8A d0 d1 d2 d3) r'
    | 0x8E, d0 :: d1 :: d2 :: d3 :: r' => .ok (.wirePair8E d0 d1 d2 d3) r'
    | 0xFA, d0 :: d1 :: d2 :: r' => .ok (.wireTriFA d0 d1 d2) r'
    | 0xFB, d0 :: d1 :: d2 :: r' => .ok (.wireTriFB d0 d1 d2) r'
    | _, _ => .reject .unknownFrame

/-- R94: a display frame is one byte, any byte. -/
def decodeGlyphFrame : List Byte → DecodeResult
  | [] => .reject .empty
  | g :: r => .ok (.wireGlyph g) r

/-- R100: the scan states; R104: "a value above 9 has no action and the model refuses it". -/
def decodeScanState : List Byte → DecodeResult
  | [] => .reject .empty
  | v :: r =>
    match v.toNat with
    | 0 => .ok .scan0 r
    | 1 => .ok .scan1 r
    | 2 => .ok .scan2 r
    | 3 => .ok .scan3 r
    | 4 => .ok .scan4 r
    | 5 => .ok .scan5 r
    | 6 => .ok .scan6 r
    | 7 => .ok .scan7 r
    | 8 => .ok .scan8 r
    | 9 => .ok .scan9 r
    | _ => .reject (.scanAboveNine v)

/-- The decoder: total on any bytes in any space. -/
def decode (sp : Space) (bs : List Byte) : DecodeResult :=
  match sp with
  | .code => decodeCode bs
  | .sensorFrame => decodeSensorFrame bs
  | .glyphFrame => decodeGlyphFrame bs
  | .scanState => decodeScanState bs

/-! ### The encoder -/

/-- The space an operation's row of spec/opcode_table.json is written in. -/
def Instr.space : Instr → Space
  | .idle | .csa | .csd | .latd | .lata | .xfer _ | .config | .readpair _ | .readtriple _ | .loadcal => .code
  | .compt | .compp | .pub _ | .showg _ | .tick | .tcfg | .arm | .poll | .boot => .code
  | .wireCfg | .wirePair88 _ _ _ _ | .wirePair8A _ _ _ _ | .wirePair8E _ _ _ _ => .sensorFrame
  | .wireTriFA _ _ _ | .wireTriFB _ _ _ => .sensorFrame
  | .wireGlyph _ => .glyphFrame
  | .scan0 | .scan1 | .scan2 | .scan3 | .scan4 | .scan5 | .scan6 | .scan7 | .scan8 | .scan9 => .scanState

/-- The bytes of an operation: R101's code and operand, R91 to R94's frame, or R100's value in the low four bits. -/
def encode : Instr → List Byte
  | .idle => [0x00#8]
  | .csa => [0x01#8]
  | .csd => [0x02#8]
  | .latd => [0x03#8]
  | .lata => [0x04#8]
  | .xfer b => [0x05#8, b]
  | .config => [0x10#8]
  | .readpair c => [0x11#8, c]
  | .readtriple c => [0x12#8, c]
  | .loadcal => [0x13#8]
  | .compt => [0x20#8]
  | .compp => [0x21#8]
  | .pub k => [0x22#8, k]
  | .showg g => [0x30#8, g]
  | .tick => [0x31#8]
  | .tcfg => [0x40#8]
  | .arm => [0x41#8]
  | .poll => [0x42#8]
  | .boot => [0x43#8]
  | .wireCfg => [0x74#8, 0x43#8]
  | .wirePair88 d0 d1 d2 d3 => [0x88#8, d0, d1, d2, d3]
  | .wirePair8A d0 d1 d2 d3 => [0x8A#8, d0, d1, d2, d3]
  | .wirePair8E d0 d1 d2 d3 => [0x8E#8, d0, d1, d2, d3]
  | .wireTriFA d0 d1 d2 => [0xFA#8, d0, d1, d2]
  | .wireTriFB d0 d1 d2 => [0xFB#8, d0, d1, d2]
  | .wireGlyph g => [g]
  | .scan0 => [0x00#8]
  | .scan1 => [0x01#8]
  | .scan2 => [0x02#8]
  | .scan3 => [0x03#8]
  | .scan4 => [0x04#8]
  | .scan5 => [0x05#8]
  | .scan6 => [0x06#8]
  | .scan7 => [0x07#8]
  | .scan8 => [0x08#8]
  | .scan9 => [0x09#8]

/-! ### Table words -/

/-- The low `n` bytes of a table word, the most significant first: the table numbers a row as one number whose leftmost
bits are its first byte (98_reader.md; R101: "code first"). -/
def wordBytes : Nat → Nat → List Byte
  | 0, _ => []
  | n + 1, w => BitVec.ofNat 8 (w / 256 ^ n) :: wordBytes n w

/-- A table word's byte count. -/
def wordByteCount (nbits : Nat) : Nat := (nbits + 7) / 8

/-- Whether a byte string is exactly one operation of a space. -/
def decodesWhole (sp : Space) (bs : List Byte) : Bool :=
  match decode sp bs with
  | .ok _ [] => true
  | _ => false

/-- The space a table word is read in: a word of at most 4 bits is a scan state; else the first of the spaces, in the
order of 30_encoding.md R109 with scan states before glyph bytes, in which the word is exactly one operation; a word that
is none is read as an operation code (log entry 7). -/
def tableSpace (nbits w : Nat) : Space :=
  let bs := wordBytes (wordByteCount nbits) w
  if nbits ≤ 4 then .scanState
  else if decodesWhole .code bs then .code
  else if decodesWhole .sensorFrame bs then .sensorFrame
  else if decodesWhole .scanState bs then .scanState
  else if decodesWhole .glyphFrame bs then .glyphFrame
  else .code

/-- The operation the decoder reads from a table word. -/
def decodeTableWord (nbits w : Nat) : Option Instr :=
  match decode (tableSpace nbits w) (wordBytes (wordByteCount nbits) w) with
  | .ok i _ => some i
  | .reject _ => none

end Sys2Proof
end

