-- ==== Sys2Proof/Machine/State.lean ====
section
/-! DEFINITION. The state of LLC-STDS (10_state.md), as plain data: the block's registers, flags, lines and sequencers, the
peer state and the history a model must carry (R45, R46), the parameters of the instance (00_scope.md R8), and the model's
own fields, which stand for what the environment does (45_main_sequence.md R241) and for an operation placed from outside. -/

namespace Sys2Proof.Machine

open Sys2Proof

/-- The logical value of a control line (R34, R35); electrical polarity is out of scope (R4). -/
inductive Line where
  | asserted
  | deasserted
deriving DecidableEq, Repr

/-- `CTX` (R44): which context runs. -/
inductive Ctx where
  | main
  | isr
deriving DecidableEq, Repr

/-- `MSEQ` (R27, R230): `BOOT0 .. BOOT22`, `POLL0 .. POLL23`, `IDLE`. -/
inductive MSeq where
  | boot (i : Fin 23)
  | poll (i : Fin 24)
  | idle
deriving DecidableEq, Repr

/-- A register that is unwritten at reset (R22, R23). `value` is what it holds, from reset on (R22: "unspecified (`any(16)`
each)"); `written` is whether an operation has written it (R303). -/
structure Datum (w : Nat) where
  value : BitVec w
  written : Bool
deriving DecidableEq, Repr

/-- Six digit variables of 8 bits each: the shared `DigitSet` (R24), or `MAIN`'s six private results (43_compensation.md). -/
structure Digits where
  tTens : Byte
  tOnes : Byte
  tTenths : Byte
  pHundreds : Byte
  pTens : Byte
  pOnes : Byte
deriving DecidableEq, Repr

/-- `MAIN`'s private reply bytes of the frame in progress: `r0 .. r3` of R142, whose first three are `b0 .. b2` of R143. -/
structure Replies where
  r0 : Byte
  r1 : Byte
  r2 : Byte
  r3 : Byte
deriving DecidableEq, Repr

/-- One entry of `HIST` (R46). -/
inductive Event where
  | cs (l : Line)
  | latch (l : Line)
  | xfer (sent received : Byte)
  | commit (v : Byte)
  | irqEnter
  | irqReturn
  | pub (k : Digit) (v : Byte)
deriving DecidableEq, Repr

/-- What the environment chooses once a list of its choices is used up: no for ever, yes for ever, or freely, the number
being that of the next free choice. None is fair by itself: R243 allows fairness "only as a named premise" (log entry 3). -/
inductive Onward where
  | never
  | always
  | free (n : Nat)
deriving DecidableEq, Repr

/-- The environment's choices that R241 lists, other than byte values: MODEL'S OWN (log entry 3). -/
structure Schedule where
  /-- One entry a move: `true` a compare-match event, `false` a move of the block. -/
  arrivals : List Bool
  /-- The choice of a move past the end of `arrivals`. -/
  arrivalsOnward : Onward
  /-- How many more clock pulses the environment lets happen before it withholds them forever (R124); `none`: no bound. -/
  clock : Option Nat
  /-- One entry each time `MAIN` may idle (R240): `true` one `IDLE`, `false` `POLL0`. -/
  idles : List Bool
  /-- The choice past the end of `idles`. -/
  idlesOnward : Onward
deriving DecidableEq, Repr

/-- An operation placed from outside, as bytes in one of the spaces of 30_encoding.md: MODEL'S OWN (log entry 6). -/
structure Program where
  space : Space
  bytes : List Byte
deriving DecidableEq, Repr

/-- A register that holds no written value until an operation writes it, and that a compensation reads (R303). -/
inductive RegName where
  | t1 | t2 | t3 | adct | adcp
deriving DecidableEq, Repr

/-- The machine's state. -/
structure State where
  /-- The parameters of the instance (R8). No step changes them. -/
  params : Params
  /-- The environment's choices (R241). -/
  sched : Schedule
  /-- How many free values have been drawn: MODEL'S OWN, the argument of the next `any(8)` (R9). -/
  draws : Nat
  /-- `SR` (R21). -/
  sr : Byte
  /-- `CNT` (R30), `0 .. 8`. -/
  cnt : Fin 9
  /-- `DONE` (R29). -/
  done : Bool
  /-- `T1` (R22). -/
  t1 : Datum 16
  /-- `T2` (R22). -/
  t2 : Datum 16
  /-- `T3` (R22). -/
  t3 : Datum 16
  /-- `P1` (R22, R163: loaded and never used). -/
  p1 : Datum 16
  /-- `P2` (R22, R163). -/
  p2 : Datum 16
  /-- `P3` (R22, R163). -/
  p3 : Datum 16
  /-- `ADCT` (R23). -/
  adct : Datum 20
  /-- `ADCP` (R23). -/
  adcp : Datum 20
  /-- `TT, TO, TH, PH, PT, PO` (R24). -/
  digits : Digits
  /-- `nTT, nTO, nTH, nPH, nPT, nPO` (R170, R180): private to `MAIN`. -/
  results : Digits
  /-- The reply bytes `MAIN` has kept of the frame in progress (R142, R143): private to `MAIN`. -/
  replies : Replies
  /-- `MSEQ` (R27). -/
  mseq : MSeq
  /-- `SCAN` (R28, R104: "A model's `SCAN` type should have exactly ten values"). -/
  scan : Fin 10
  /-- `CTX` (R44). -/
  ctx : Ctx
  /-- `IE` (R31). -/
  ie : Bool
  /-- `TICK_PEND` (R32). -/
  tickPend : Bool
  /-- `TRUN` (R38). -/
  trun : Bool
  /-- `CMP` (R37), below `2 ^ CMP_W`. -/
  cmp : Nat
  /-- `CS` (R34). -/
  cs : Line
  /-- `LATCH` (R35). -/
  latch : Line
  /-- `IE_SAVE_X` (R43), dead outside one `XFER`. -/
  ieSaveX : Bool
  /-- `IE_SAVE_I` (R43), dead outside `ISR`. -/
  ieSaveI : Bool
  /-- `MSEQ_SAVE` (R43), dead outside `ISR`. -/
  mseqSave : MSeq
  /-- `DSR` (R45): the display peer's shift register. -/
  dsr : Byte
  /-- `DOUT` (R45): the display peer's committed output. -/
  dout : Byte
  /-- `ENV` (R45): the bytes shifted out since `CS` was last asserted. -/
  env : List Byte
  /-- `HIST` (R46), oldest first. -/
  hist : List Event
  /-- Whether an `XFER` waits for a pulse that never comes (R124, R311). -/
  hung : Bool
  /-- Operations placed from outside, run before `MAIN`'s own sequence goes on: MODEL'S OWN (log entry 6). -/
  program : Program
  /-- The reads by `COMPT` and `COMPP` of a register that no operation had written (R303, U14), oldest first: MODEL'S OWN (log
  entry 12). Nothing of the machine depends on it. -/
  misreads : List RegName
deriving DecidableEq, Repr

/-- Why the machine stops with a fault: never. "The hardware raises no synchronous exception" (R260), and every register holds a
value from reset on, so a read of one that nothing has written is no stop (log entry 12). -/
inductive Fault where
deriving DecidableEq, Repr

/-- Why the model gives a form no meaning. -/
inductive Refusal where
  /-- Raised by `exec` for an operation with no meaning yet. Safe: no operation is left so. -/
  | notModelled (mnemonic : String)
  /-- Raised by `CSA` with `CS` asserted (R126: "a model refuses it"; U15). Safe: the fixed sequences never do it. -/
  | csaWhileAsserted
  /-- Raised by `CSD` with `CS` deasserted (R127: "a model refuses it"; U15). Safe: the fixed sequences never do it. -/
  | csdWhileDeasserted
  /-- Raised by `TCFG` when `SCAN_HZ` is 0 (R274: "the model refuses the configuration"; U9). Safe. -/
  | scanHzZero
  /-- Raised by `TCFG` when the divided count is 0 or does not fit the compare register (R274; U9). Safe. -/
  | countOutOfRange
  /-- Raised by `READPAIR`, `READTRIPLE` and `PUB` on an operand outside R102's sets. Safe: "a form the hardware never
  executes; a model refuses it". -/
  | badOperand
  /-- Raised by the step when the placed bytes spell no operation (R102, R103, R104). Safe. -/
  | undecodable (e : DecodeError)
deriving DecidableEq, Repr

/-- What R47 leaves unspecified at reset: "drawn once at reset" (R302, U3, U16), or dead at reset (R43). -/
structure PowerOn where
  sr : Byte
  coefficients : Vector Coef 6
  adct : Sample
  adcp : Sample
  digits : Digits
  results : Digits
  replies : Replies
  cmp : Nat
  dsr : Byte
  dout : Byte
  ieSaveX : Bool
  ieSaveI : Bool
  mseqSave : MSeq
deriving DecidableEq, Repr

/-- Six zero digits. -/
def Digits.zero : Digits := ⟨0#8, 0#8, 0#8, 0#8, 0#8, 0#8⟩

/-- Zero for every value R47 leaves unspecified: DESIGN CHOICE, log entry 1. -/
def PowerOn.zero : PowerOn where
  sr := 0#8
  coefficients := #v[0#16, 0#16, 0#16, 0#16, 0#16, 0#16]
  adct := 0#20
  adcp := 0#20
  digits := Digits.zero
  results := Digits.zero
  replies := ⟨0#8, 0#8, 0#8, 0#8⟩
  cmp := 0
  dsr := 0#8
  dout := 0#8
  ieSaveX := false
  ieSaveI := false
  mseqSave := .boot 0

/-- The environment that does nothing: no compare-match, a clock that always runs, no idling. DESIGN CHOICE, log entry 3. -/
def Schedule.quiet : Schedule := ⟨[], .never, none, [], .never⟩

/-- The state after reset (R47, R301) for any parameters, any values of what reset leaves unspecified, and any environment. -/
def State.resetWith (p : Params) (v : PowerOn) (e : Schedule) : State where
  params := p
  sched := e
  draws := 0
  sr := v.sr
  cnt := 0
  done := false
  t1 := ⟨v.coefficients[0], false⟩
  t2 := ⟨v.coefficients[1], false⟩
  t3 := ⟨v.coefficients[2], false⟩
  p1 := ⟨v.coefficients[3], false⟩
  p2 := ⟨v.coefficients[4], false⟩
  p3 := ⟨v.coefficients[5], false⟩
  adct := ⟨v.adct, false⟩
  adcp := ⟨v.adcp, false⟩
  digits := v.digits
  results := v.results
  replies := v.replies
  mseq := .boot 0
  scan := 0
  ctx := .main
  ie := false
  tickPend := false
  trun := false
  cmp := v.cmp
  cs := .deasserted
  latch := .asserted
  ieSaveX := v.ieSaveX
  ieSaveI := v.ieSaveI
  mseqSave := v.mseqSave
  dsr := v.dsr
  dout := v.dout
  env := []
  hist := []
  hung := false
  program := ⟨.code, []⟩
  misreads := []

/-- The state after reset with the default parameters, zero for what the spec leaves unspecified, and a quiet environment. -/
def State.reset : State := State.resetWith Params.default PowerOn.zero Schedule.quiet

end Sys2Proof.Machine
end

