-- ==== Sys2Proof/Machine/Operands.lean ====
section
/-! DEFINITION. Operands and their assembly: bit positions on the wire (30_encoding.md R95), 16-bit and 20-bit values from
reply bytes (R96, R97), glyph selection (R98), the closed operand sets (R102), and the digit accessors (R24, R237). -/

namespace Sys2Proof.Machine

open Sys2Proof

/-! ### Bits of a byte on the wire -/

/-- `pos(k)` (R122): the bit of the byte that pulse `k` carries. -/
def bitPos (o : BitOrder) (k : Fin 8) : Nat :=
  match o with
  | .msbFirst => 7 - k.val
  | .lsbFirst => k.val

/-- The bit of a byte that pulse `k` puts on the line (R122). -/
def lineBit (o : BitOrder) (b : Byte) (k : Fin 8) : Bool := b.getLsbD (bitPos o k)

/-- An 8-bit shift register after one pulse that shifts `x` in (R21, R68): the bit enters at the end the order leaves free. -/
def shiftIn (o : BitOrder) (r : Byte) (x : Bool) : Byte :=
  match o with
  | .msbFirst => (r <<< 1) ||| (if x then 0x01#8 else 0#8)
  | .lsbFirst => (r >>> 1) ||| (if x then 0x80#8 else 0#8)

/-- The eight pulses of one byte, in order (R122). -/
def allPulses : List (Fin 8) := [0, 1, 2, 3, 4, 5, 6, 7]

/-! ### Assembly -/

/-- `sext_16((hi << 8) | lo)` (R62, R96): the low byte arrives first. -/
def word16 (lo hi : Byte) : Coef := hi ++ lo

/-- `(b0 << 12) | (b1 << 4) | (b2 >> 4)` (R63, R97). -/
def sample20 (b0 b1 b2 : Byte) : Sample := b0 ++ b1 ++ b2.extractLsb' 4 4

/-! ### Closed operand sets -/

/-- The byte of a `READPAIR` command (R61). -/
def pairByte : PairCmd → Byte
  | .c88 => 0x88#8
  | .c8A => 0x8A#8
  | .c8E => 0x8E#8

/-- The `READPAIR` command a byte names, if any (R102). -/
def pairCmdOf (c : Byte) : Option PairCmd :=
  match c.toNat with
  | 0x88 => some .c88
  | 0x8A => some .c8A
  | 0x8E => some .c8E
  | _ => none

/-- The byte of a `READTRIPLE` command (R61). -/
def tripleByte : TripleCmd → Byte
  | .cFA => 0xFA#8
  | .cFB => 0xFB#8

/-- The `READTRIPLE` command a byte names, if any (R102). -/
def tripleCmdOf (c : Byte) : Option TripleCmd :=
  match c.toNat with
  | 0xFA => some .cFA
  | 0xFB => some .cFB
  | _ => none

/-- `PUB`'s operand of a digit (R237). -/
def selectorByte : Digit → Byte
  | .tTens => 0#8
  | .tOnes => 1#8
  | .tTenths => 2#8
  | .pHundreds => 3#8
  | .pTens => 4#8
  | .pOnes => 5#8

/-- The digit `PUB`'s operand selects, if any (R102, R237). -/
def digitOf (k : Byte) : Option Digit :=
  match k.toNat with
  | 0 => some .tTens
  | 1 => some .tOnes
  | 2 => some .tTenths
  | 3 => some .pHundreds
  | 4 => some .pTens
  | 5 => some .pOnes
  | _ => none

/-- How many reply bytes a read command has (R61): 4 for a pair, 3 for a triple; none for a byte that is no read command. -/
def replyLength (c : Byte) : Nat :=
  match c.toNat with
  | 0x88 => 4
  | 0x8A => 4
  | 0x8E => 4
  | 0xFA => 3
  | 0xFB => 3
  | _ => 0

/-! ### Digits -/

/-- One digit of six. -/
def Digits.get (d : Digits) : Digit → Byte
  | .tTens => d.tTens
  | .tOnes => d.tOnes
  | .tTenths => d.tTenths
  | .pHundreds => d.pHundreds
  | .pTens => d.pTens
  | .pOnes => d.pOnes

/-- Six digits with one replaced. -/
def Digits.set (d : Digits) (k : Digit) (v : Byte) : Digits :=
  match k with
  | .tTens => { d with tTens := v }
  | .tOnes => { d with tOnes := v }
  | .tTenths => { d with tTenths := v }
  | .pHundreds => { d with pHundreds := v }
  | .pTens => { d with pTens := v }
  | .pOnes => { d with pOnes := v }

/-- Whether a digit value selects an entry of the glyph table (R60, R72). -/
def inGlyphTable (d : Byte) : Bool := decide (d.toNat < 12)

/-- A read of `GLYPH[d]` (R72, R98): the constant; above 11, the free byte `x` (R105). -/
def glyphOr (p : Params) (x d : Byte) : Byte :=
  if h : d.toNat < 12 then p.glyph[d.toNat] else x

/-! ### Integer laws of the compensation (R184) -/

/-- `v >> n` (R9, R173): floor division by a power of two, for either sign. -/
def asr (v : Int) (n : Nat) : Int := v / (2 ^ n : Nat)

/-- `Fits32` of one value (R174). -/
abbrev fits32 (v : Int) : Prop := -2147483648 ≤ v ∧ v ≤ 2147483647

end Sys2Proof.Machine
end

