-- ==== Sys2Proof/Machine/Flags.lean ====
section
/-! DEFINITION. The flags (10_state.md R29 to R32, R38, R44): how each is written and what each decides. There are no
arithmetic condition codes (R33): no operation here computes one. -/

namespace Sys2Proof.Machine

open Sys2Proof

/-- `XFER`'s suspension of the interrupt system (R123): save `IE`, clear it. -/
def suspendIrq (s : State) : State := { s with ieSaveX := s.ie, ie := false }

/-- The end of the suspension (R123): "restores; it does not unconditionally enable". -/
def restoreIrq (s : State) : State := { s with ie := s.ieSaveX }

/-- `IE <- 1` (R275). -/
def enableIrq (s : State) : State := { s with ie := true }

/-- `SR <- b ; CNT <- 0 ; DONE <- 0` (R121). -/
def loadShift (b : Byte) (s : State) : State := { s with sr := b, cnt := 0, done := false }

/-- A compare-match event (R264): it sets `TICK_PEND` while `TRUN = 1`; a set `TICK_PEND` absorbs it (R282). -/
def compareMatch (s : State) : State := { s with tickPend := s.trun || s.tickPend }

/-- The condition for taking the interrupt (R267). -/
def irqReady (s : State) : Bool := s.ctx == .main && s.ie && s.tickPend

/-- Whether the environment lets `n` more clock pulses happen (R124). -/
def clockGives (n : Nat) (s : State) : Bool :=
  match s.sched.clock with
  | none => true
  | some m => decide (n ≤ m)

/-- How many pulses of one byte happen before the environment withholds the next (R124). -/
def pulsesLeft (s : State) : Nat :=
  match s.sched.clock with
  | none => 8
  | some m => m

/-- `n` clock pulses have happened. -/
def spendClock (n : Nat) (s : State) : State :=
  { s with sched := { s.sched with clock := s.sched.clock.map (· - n) } }

/-! ### The environment's choices (R241) -/

/-- The choice past the end of a list; `f` is the free one. -/
def Onward.choice (f : Nat → Bool) : Onward → Bool
  | .never => false
  | .always => true
  | .free n => f n

/-- What remains past the end of a list after one choice. -/
def Onward.rest : Onward → Onward
  | .never => .never
  | .always => .always
  | .free n => .free (n + 1)

/-- Whether the environment's next move is a compare-match event. -/
def Schedule.nextArrival (e : Schedule) : Bool :=
  match e.arrivals with
  | [] => e.arrivalsOnward.choice Config.freeArrival
  | b :: _ => b

/-- The environment's choices after that move. -/
def Schedule.afterArrival (e : Schedule) : Schedule :=
  match e.arrivals with
  | [] => { e with arrivalsOnward := e.arrivalsOnward.rest }
  | _ :: r => { e with arrivals := r }

/-- Whether the environment's next choice after `POLL23` or `IDLE` is an `IDLE` (R240). -/
def Schedule.nextIdle (e : Schedule) : Bool :=
  match e.idles with
  | [] => e.idlesOnward.choice Config.freeIdle
  | b :: _ => b

/-- The environment's choices after that one. -/
def Schedule.afterIdle (e : Schedule) : Schedule :=
  match e.idles with
  | [] => { e with idlesOnward := e.idlesOnward.rest }
  | _ :: r => { e with idles := r }

/-- The environment has made its choice of the next move. -/
def takeArrival (s : State) : State := { s with sched := s.sched.afterArrival }

/-- The environment's move entries that remain. -/
def setArrivals (a : List Bool) (s : State) : State := { s with sched := { s.sched with arrivals := a } }

/-- The environment's choice past the end of its listed moves. -/
def setOnward (o : Onward) (s : State) : State := { s with sched := { s.sched with arrivalsOnward := o } }

/-- The environment's idling entries that remain. -/
def setIdles (l : List Bool) (s : State) : State := { s with sched := { s.sched with idles := l } }

end Sys2Proof.Machine
end

