-- ==== Sys2Proof/Machine/Ops.lean ====
section
/-! DEFINITION. The shared operations: the control lines with their peers (40_transport.md R126 to R129, 20_memory.md R68),
one byte transfer at byte level and at bit level (R121, R122, R124), the glyph frame and the tick (44_display_scanner.md),
and taking and leaving the one interrupt (60_exceptions.md R268, R272). There is no addressable memory (R60): these are the
block's accesses to what it reaches instead. -/

namespace Sys2Proof.Machine

open Sys2Proof

/-- The outcome of one operation or step. -/
abbrev Result := Host.Outcome State Fault Refusal

/-- Go on with `k` after an operation that completed: a fault or a refusal ends the run of operations, and after a hung
`XFER` nothing follows (R124, R311). -/
def andThen (o : Result) (k : State → Result) : Result :=
  match o with
  | .next s => if s.hung then .next s else k s
  | .fault r => .fault r
  | .refused r => .refused r

/-- One event appended to `HIST` (R46). -/
def record (e : Event) (s : State) : State := { s with hist := s.hist ++ [e] }

/-! ### Lines -/

/-- R126: `CS <- asserted ; ENV <- []`. -/
def assertCs (s : State) : State := record (.cs .asserted) { s with cs := .asserted, env := [] }

/-- R127: `CS <- deasserted ; ENV <- []`. -/
def deassertCs (s : State) : State := record (.cs .deasserted) { s with cs := .deasserted, env := [] }

/-- R128: `LATCH <- deasserted`; `DOUT` keeps its value. -/
def deassertLatch (s : State) : State := record (.latch .deasserted) { s with latch := .deasserted }

/-- What the display peer does when `LATCH` is set to `asserted` (R68): a commit on the `deasserted → asserted` transition;
"`DOUT` changes at no other time" (log entry 8). -/
def commitEvents (s : State) : List Event :=
  if s.latch = .deasserted then [.latch .asserted, .commit s.dsr] else [.latch .asserted]

/-- R129 with R68: `LATCH <- asserted ; DOUT <- DSR`. -/
def assertLatch (s : State) : State :=
  { s with
    latch := .asserted
    dout := if s.latch = .deasserted then s.dsr else s.dout
    hist := s.hist ++ commitEvents s }

/-! ### One byte transfer -/

/-- Whether the envelope so far is a clean read frame with a reply byte due (R66): a read command, then only copies of
`DUMMY`, fewer than its reply length. -/
def cleanFrame (p : Params) : List Byte → Bool
  | [] => false
  | c :: ds => decide (ds.length < replyLength c) && ds.all (· == p.dummy)

/-- `Sensor.reply(ENV)` (R66) at a moment: `REG(c, k)` in a clean frame, `any(8)` in every other situation. -/
def sensorReply (p : Params) (env : List Byte) (moment : Nat) : Byte :=
  match env with
  | [] => Config.anyByte moment
  | c :: ds => if cleanFrame p (c :: ds) then Config.sensorReg moment c ds.length else Config.anyByte moment

/-- The byte shifted in by the next `XFER` (R121): the sensor's reply while `CS` is asserted; else nobody drives `DI`. -/
def incoming (s : State) : Byte :=
  if s.cs = .asserted then sensorReply s.params s.env s.draws else Config.anyByte s.draws

/-- R122: pulse `k` of the transfer of `b` against `rin`. -/
def pulse (b rin : Byte) (s : State) (k : Fin 8) : State :=
  { s with
    sr := shiftIn s.params.bitOrder s.sr (lineBit s.params.bitOrder rin k)
    dsr := shiftIn s.params.bitOrder s.dsr (lineBit s.params.bitOrder b k)
    cnt := k.succ }

/-- The first `n` pulses of a transfer. -/
def pulses (n : Nat) (b rin : Byte) (s : State) : State := (allPulses.take n).foldl (pulse b rin) s

/-- The opening of `XFER` (R121): a draw is taken for the incoming byte, the interrupt is suspended, the shift unit loaded. -/
def xferStart (b : Byte) (s : State) : State := loadShift b (suspendIrq { s with draws := s.draws + 1 })

/-- `XFER` from its eighth pulse on (R121). -/
def xferFinish (b rin : Byte) (s : State) : State :=
  restoreIrq (record (.xfer b rin) { s with
    sr := rin
    cnt := 8
    done := true
    dsr := b
    env := if s.cs = .asserted then s.env ++ [b] else s.env })

/-- `XFER` when the environment withholds a pulse forever (R124, R311): the pulses that came have shifted; `IE = 0`,
`DONE = 0`, and nothing else of the operation happens. -/
def xferHang (b rin : Byte) (n : Nat) (s : State) : State :=
  spendClock n { pulses n b rin s with hung := true }

/-- R121: exchange one byte; the returned byte is left in `SR`. -/
def xfer (b : Byte) (s : State) : State :=
  if clockGives 8 s then xferFinish b (incoming s) (spendClock 8 (xferStart b s))
  else xferHang b (incoming s) (pulsesLeft s) (xferStart b s)

/-! ### Glyph frame and tick -/

/-- R204: `LATD; XFER g; LATA`, never separated by another context; a hung `XFER` leaves `LATCH` deasserted. -/
def showGlyph (g : Byte) (s : State) : State :=
  let t := xfer g (deassertLatch s)
  if t.hung then t else assertLatch t

/-- The end of a tick (R208): the advance follows the action and does not happen after a hung `SHOW`. -/
def advanceScan (next : Fin 10) (s : State) : State := if s.hung then s else { s with scan := next }

/-- `GLYPH[d]` read now; an index above 11 takes the next free byte (R72). -/
def glyphNow (d : Byte) (s : State) : Byte := glyphOr s.params (Config.anyByte s.draws) d

/-- The state after that read: a free byte has been drawn if the index was above 11. -/
def glyphRead (d : Byte) (s : State) : State :=
  { s with draws := if inGlyphTable d then s.draws else s.draws + 1 }

/-- `SHOW(GLYPH[d])`. -/
def showDigit (d : Byte) (s : State) : State := showGlyph (glyphNow d s) (glyphRead d s)

/-- The action of a scan state, without the advance (R206, R213 to R222). -/
def scanAction (k : Fin 10) (s : State) : State :=
  match k with
  | 0 => showDigit s.digits.tTens s
  | 1 => showDigit s.digits.tOnes s
  | 2 => showGlyph s.params.glyphDp s
  | 3 => showDigit s.digits.tTenths s
  | 4 => showGlyph s.params.glyph[11] s
  | 5 => showDigit s.digits.pHundreds s
  | 6 => showDigit s.digits.pTens s
  | 7 => showDigit s.digits.pOnes s
  | 8 => showGlyph s.params.glyph[10] s
  | 9 => s

/-- The tick in scan state `k` (R208, R213 to R222): the action, then `SCAN <- (k + 1) mod 10`. -/
def tickIn (k : Fin 10) (s : State) : State := advanceScan (k + 1) (scanAction k s)

/-- `TICK` (R208): the tick in the scan state found on entry. -/
def tick (s : State) : State := tickIn s.scan s

/-! ### The interrupt -/

/-- R268: entry. -/
def irqEnter (s : State) : State :=
  record .irqEnter { s with
    tickPend := false
    ieSaveI := s.ie
    ie := false
    mseqSave := s.mseq
    ctx := .isr }

/-- R272: return. -/
def irqReturn (s : State) : State :=
  record .irqReturn { s with
    ie := s.ieSaveI
    mseq := s.mseqSave
    ctx := .main }

/-- One run of `ISR` (R241, R269): entry, one `TICK`, return; "If the `XFER` inside `TICK` hangs there is no return" (R272). -/
def runIsr (s : State) : State :=
  let t := tick (irqEnter s)
  if t.hung then t else irqReturn t

/-- The tick taken if the interrupt is ready (R241 (2), R266). -/
def takeTick (s : State) : State := if irqReady s then runIsr s else s

/-! ### A boundary between two µops of a macro -/

/-- How a boundary ends: the block goes on to its next µop, or the environment never lets it (R243: that it does is no rule,
"only ... a named premise"). -/
inductive Crossing where
  | goes (s : State)
  | starved (s : State)
deriving DecidableEq, Repr

/-- The state at the end of a boundary. -/
def Crossing.state : Crossing → State
  | .goes s => s
  | .starved s => s

/-- What happens at a boundary between two µops of `MAIN` (R236, R241, R266) for the given moves of the environment:
compare-match events, and runs of `ISR` while the interrupt is ready, until the block's move is the next µop; `last` says what
happens when the moves are used up. -/
def settle : List Bool → (State → Crossing) → State → Crossing
  | [], last, s => last (setArrivals [] s)
  | true :: r, last, s => settle r last (compareMatch s)
  | false :: r, last, s =>
    if irqReady s then
      let t := runIsr s
      if t.hung then .goes (setArrivals r t) else settle r last t
    else .goes (setArrivals r s)

/-- The block is let go on, after a tick if one is ready. -/
def letGo (s : State) : Crossing := .goes (takeTick s)

/-- Only compare-matches come, for ever: past the first they change nothing (R282). -/
def starve (s : State) : Crossing := .starved (compareMatch s)

/-- A boundary past the end of the listed moves: no more compare-matches, only compare-matches, or free moves. -/
def pastMoves (s : State) : Crossing :=
  match s.sched.arrivalsOnward with
  | .never => letGo s
  | .always => starve s
  | .free n =>
    let c := Config.freeBoundary n
    if c.2 then settle c.1 starve (setOnward .always s) else settle c.1 letGo (setOnward (.free (n + 1)) s)

/-- The boundary, with the environment's moves taken from the state. -/
def boundary (s : State) : Crossing := settle s.sched.arrivals pastMoves s

/-- Go on with `k` if the environment lets the block; a starved block takes no further step (log entry 3). -/
def afterBoundary (c : Crossing) (k : State → Result) : Result :=
  match c with
  | .goes s => andThen (.next s) k
  | .starved s => .next s

end Sys2Proof.Machine
end

