-- ==== Sys2Proof/Machine/Compensation.lean ====
section
/-! DEFINITION. CompensationEngine (43_compensation.md): `COMPT` and `COMPP`, in mathematical integers (R174, R184). The
intermediates are not state (R25); the results go to `MAIN`'s six private digits. -/

namespace Sys2Proof.Machine

open Sys2Proof

/-- The registers among those read that no operation has written (R303). -/
def unwritten (reads : List (RegName × Bool)) : List RegName := (reads.filter (fun r => !r.2)).map Prod.fst

/-- `m1 = a * T2` with `a = (ADCT >> 3) - (T1 << 1)` (R170, R171). -/
def tempM1 (adct : Sample) (t1 t2 : Coef) : Int := (asr adct.toNat 3 - t1.toInt * 2) * t2.toInt

/-- `d = (ADCT >> 4) - T1` (R170). -/
def tempD (adct : Sample) (t1 : Coef) : Int := asr adct.toNat 4 - t1.toInt

/-- `m2 = ((d * d) >> 12) * T3` (R170, R172). -/
def tempM2 (adct : Sample) (t1 t3 : Coef) : Int := asr (tempD adct t1 * tempD adct t1) 12 * t3.toInt

/-- `tfine = var1 + var2`, `var1 = m1 >> 11`, `var2 = m2 >> 14` (R170 to R173). -/
def tempFine (adct : Sample) (t1 t2 t3 : Coef) : Int := asr (tempM1 adct t1 t2) 11 + asr (tempM2 adct t1 t3) 14

/-- The domain of the temperature digits (R174, R176): `Fits32` and `0 <= tfine < 512000`. -/
abbrev tempInDomain (adct : Sample) (t1 t2 t3 : Coef) : Prop :=
  fits32 (tempM1 adct t1 t2) ∧ fits32 (tempD adct t1 * tempD adct t1) ∧ fits32 (tempM2 adct t1 t3) ∧
  fits32 (tempFine adct t1 t2 t3) ∧ 0 ≤ tempFine adct t1 t2 t3 ∧ tempFine adct t1 t2 t3 < 512000

/-- The three temperature digits of a `tfine` in the domain (R170, R175): `ip / 10`, `ip mod 10` with
`ip = floor(tfine / 5120)`, and `floor(tfine / 512) mod 10`. -/
def tempDigits (tfine : Int) : Byte × Byte × Byte :=
  let n := tfine.toNat
  (BitVec.ofNat 8 (n / 5120 / 10), BitVec.ofNat 8 (n / 5120 % 10), BitVec.ofNat 8 (n / 512 % 10))

/-- The temperature digits that `COMPT` writes: outside the domain three free bytes, "drawn once, at the computation" (R177,
R237). -/
def tempResults (s : State) : Byte × Byte × Byte :=
  if tempInDomain s.adct.value s.t1.value s.t2.value s.t3.value then
    tempDigits (tempFine s.adct.value s.t1.value s.t2.value s.t3.value)
  else (Config.anyByte s.draws, Config.anyByte (s.draws + 1), Config.anyByte (s.draws + 2))

/-- How many free bytes `COMPT` draws. -/
def tempDraws (s : State) : Nat := if tempInDomain s.adct.value s.t1.value s.t2.value s.t3.value then 0 else 3

/-- The unwritten registers that `COMPT` reads. -/
def tempMisreads (s : State) : List RegName :=
  unwritten [(.adct, s.adct.written), (.t1, s.t1.written), (.t2, s.t2.written), (.t3, s.t3.written)]

/-- What `COMPT` does to the state (R170), on the values its four registers hold. -/
def compensateTemp (s : State) : State :=
  { s with
    results := { s.results with
      tTens := (tempResults s).1
      tOnes := (tempResults s).2.1
      tTenths := (tempResults s).2.2 }
    draws := s.draws + tempDraws s
    misreads := s.misreads ++ tempMisreads s }

/-- `COMPT` (R170: "Exceptions: none in the hardware"): a read of an unwritten register is recorded, not a stop (R303; log
entry 12). -/
def execCompt (s : State) : Result := .next (compensateTemp s)

/-- `p = ((ADCP >> 2) - 1638) * 50` (R180). -/
def pressure (adcp : Sample) : Int := (asr adcp.toNat 2 - 1638) * 50

/-- The three pressure digits of `p >= 0` (R180): `(p / 100) mod 10`, `(p / 10) mod 10`, `p mod 10`. -/
def pressureDigits (p : Int) : Byte × Byte × Byte :=
  let n := p.toNat
  (BitVec.ofNat 8 (n / 100 % 10), BitVec.ofNat 8 (n / 10 % 10), BitVec.ofNat 8 (n % 10))

/-- The pressure digits that `COMPP` writes: for `p < 0` three free bytes (R182). -/
def pressureResults (s : State) : Byte × Byte × Byte :=
  if 0 ≤ pressure s.adcp.value then pressureDigits (pressure s.adcp.value)
  else (Config.anyByte s.draws, Config.anyByte (s.draws + 1), Config.anyByte (s.draws + 2))

/-- How many free bytes `COMPP` draws. -/
def pressureDraws (s : State) : Nat := if 0 ≤ pressure s.adcp.value then 0 else 3

/-- `ADCP`, if `COMPP` reads it unwritten. -/
def pressureMisreads (s : State) : List RegName := unwritten [(.adcp, s.adcp.written)]

/-- What `COMPP` does to the state (R180), on the value `ADCP` holds. -/
def compensatePressure (s : State) : State :=
  { s with
    results := { s.results with
      pHundreds := (pressureResults s).1
      pTens := (pressureResults s).2.1
      pOnes := (pressureResults s).2.2 }
    draws := s.draws + pressureDraws s
    misreads := s.misreads ++ pressureMisreads s }

/-- `COMPP` (R180: "Exceptions: none"): it reads no coefficient (R183); R303 as for `COMPT`. -/
def execCompp (s : State) : Result := .next (compensatePressure s)

end Sys2Proof.Machine
end

