-- ==== Sys2Proof/Machine/Publish.lean ====
section
/-! DEFINITION. The µops of the main line that belong to no component (45_main_sequence.md R237, R239): `PUB` and `IDLE`. -/

namespace Sys2Proof.Machine

open Sys2Proof

/-- R237: `D(k) <- n(k)`, and the event. -/
def publish (k : Digit) (s : State) : State :=
  record (.pub k (s.results.get k)) { s with digits := s.digits.set k (s.results.get k) }

/-- `PUB k` (R237): an operand above 5 is refused (R102). -/
def execPub (k : Byte) (s : State) : Result :=
  match digitOf k with
  | some d => .next (publish d s)
  | none => .refused .badOperand

/-- `IDLE` (R239): no state change. -/
def execIdle (s : State) : Result := .next s

end Sys2Proof.Machine
end

