-- ==== Sys2Proof/Machine/System.lean ====
section
/-! DEFINITION. The two system operations (60_exceptions.md R274, R275): `TCFG` and `ARM`. -/

namespace Sys2Proof.Machine

open Sys2Proof

/-- The timer configured and counting (R274): `CMP <- n - 1 ; TRUN <- 1`. -/
def startTimer (s : State) : State := { s with cmp := s.params.timerCount - 1, trun := true }

/-- `TCFG` (R274): parameters that fail its two requirements are refused. -/
def execTcfg (s : State) : Result :=
  if s.params.scanHz = 0 then .refused .scanHzZero
  else if 1 ≤ s.params.timerCount ∧ s.params.timerCount ≤ 2 ^ s.params.cmpW then .next (startTimer s)
  else .refused .countOutOfRange

/-- `ARM` (R275): `IE <- 1`. -/
def execArm (s : State) : Result := .next (enableIrq s)

end Sys2Proof.Machine
end

