-- ==== Sys2Proof/Machine/Transport.lean ====
section
/-! DEFINITION. BitClockedTransport and the line operations (40_transport.md): `XFER`, `CSA`, `CSD`, `LATD`, `LATA`. -/

namespace Sys2Proof.Machine

open Sys2Proof

/-- `XFER b` (R121); the byte it returns is in `SR`. -/
def execXfer (b : Byte) (s : State) : Result := .next (xfer b s)

/-- `CSA` (R126): refused when `CS` is already asserted. -/
def execCsa (s : State) : Result :=
  match s.cs with
  | .deasserted => .next (assertCs s)
  | .asserted => .refused .csaWhileAsserted

/-- `CSD` (R127): refused when `CS` is already deasserted. -/
def execCsd (s : State) : Result :=
  match s.cs with
  | .asserted => .next (deassertCs s)
  | .deasserted => .refused .csdWhileDeasserted

/-- `LATD` (R128). -/
def execLatd (s : State) : Result := .next (deassertLatch s)

/-- `LATA` (R129). -/
def execLata (s : State) : Result := .next (assertLatch s)

end Sys2Proof.Machine
end

