-- ==== Sys2Proof/Machine/Uops.lean ====
section
/-! DEFINITION. The µops (45_main_sequence.md R231), with what `MAIN` does with a returned byte, the expansions of the
macros (30_encoding.md R108), and running a list of µops with the interrupt points between them (R236). -/

namespace Sys2Proof.Machine

open Sys2Proof

/-- Where `MAIN` keeps a returned byte (R142, R143: `r0 .. r3`, `b0 .. b2`). -/
inductive Slot where
  | r0 | r1 | r2 | r3
deriving DecidableEq, Repr

/-- What `MAIN` assembles when a frame's `CSD` has run (R108: "may be taken as part of the `CSD` µop"). -/
inductive Dest where
  | nothing
  | pair (c : PairCmd)
  | sample (c : TripleCmd)
deriving DecidableEq, Repr

/-- One µop of R231. -/
inductive Uop where
  | csa
  | csd (dst : Dest)
  | latd
  | lata
  | xfer (b : Byte) (keep : Option Slot)
  | compt
  | compp
  | pub (k : Digit)
  | tcfg
  | arm
  | idle
deriving DecidableEq, Repr

/-- The operation of R101 that a µop is. -/
def uopInstr : Uop → Instr
  | .csa => .csa
  | .csd _ => .csd
  | .latd => .latd
  | .lata => .lata
  | .xfer b _ => .xfer b
  | .compt => .compt
  | .compp => .compp
  | .pub k => .pub (selectorByte k)
  | .tcfg => .tcfg
  | .arm => .arm
  | .idle => .idle

/-- `MAIN` keeps the byte that `XFER` returned, `SR`, in a slot. -/
def keepReply (k : Slot) (s : State) : State :=
  match k with
  | .r0 => { s with replies := { s.replies with r0 := s.sr } }
  | .r1 => { s with replies := { s.replies with r1 := s.sr } }
  | .r2 => { s with replies := { s.replies with r2 := s.sr } }
  | .r3 => { s with replies := { s.replies with r3 := s.sr } }

/-- R96 on the kept bytes: the first output of a `READPAIR`. -/
def pairOut1 (s : State) : Coef := word16 s.replies.r0 s.replies.r1

/-- R96 on the kept bytes: the second output of a `READPAIR`. -/
def pairOut2 (s : State) : Coef := word16 s.replies.r2 s.replies.r3

/-- R97 on the kept bytes. -/
def sampleOut (s : State) : Sample := sample20 s.replies.r0 s.replies.r1 s.replies.r2

/-- The destinations of a `READPAIR` (R61, R160). -/
def storePair (c : PairCmd) (s : State) : State :=
  match c with
  | .c88 => { s with t1 := ⟨pairOut1 s, true⟩, t2 := ⟨pairOut2 s, true⟩ }
  | .c8A => { s with t3 := ⟨pairOut1 s, true⟩, p1 := ⟨pairOut2 s, true⟩ }
  | .c8E => { s with p2 := ⟨pairOut1 s, true⟩, p3 := ⟨pairOut2 s, true⟩ }

/-- The destination of a `READTRIPLE` (R61, R143). -/
def storeSample (c : TripleCmd) (s : State) : State :=
  match c with
  | .cFA => { s with adct := ⟨sampleOut s, true⟩ }
  | .cFB => { s with adcp := ⟨sampleOut s, true⟩ }

/-- What `MAIN` does with the private values after a µop (R108). -/
def capture (u : Uop) (s : State) : State :=
  match u with
  | .xfer _ (some k) => keepReply k s
  | .csd (.pair c) => storePair c s
  | .csd (.sample c) => storeSample c s
  | _ => s

/-- The effect of a µop on the block. -/
def uopEffect (u : Uop) (s : State) : Result :=
  match u with
  | .csa => execCsa s
  | .csd _ => execCsd s
  | .latd => execLatd s
  | .lata => execLata s
  | .xfer b _ => execXfer b s
  | .compt => execCompt s
  | .compp => execCompp s
  | .pub k => execPub (selectorByte k) s
  | .tcfg => execTcfg s
  | .arm => execArm s
  | .idle => execIdle s

/-- One µop with `MAIN`'s capture of its result; a hung `XFER` returns nothing to capture (R124). -/
def runUop (u : Uop) (s : State) : Result := andThen (uopEffect u s) (fun t => .next (capture u t))

/-- A list of µops of `MAIN`, with an interrupt point between every two of them (R236, R231), at which an environment may keep
the block for ever (R243). -/
def runUops : List Uop → State → Result
  | [], s => .next s
  | u :: rest, s =>
    andThen (runUop u s) fun t =>
      match rest with
      | [] => .next t
      | _ :: _ => afterBoundary (boundary t) (runUops rest)

/-! ### Expansions (R108) -/

/-- A `W-PAIR` frame with the given dummy bytes (R92, R142). -/
def pairFrame (c : PairCmd) (d0 d1 d2 d3 : Byte) : List Uop :=
  [.csa, .xfer (pairByte c) none, .xfer d0 (some .r0), .xfer d1 (some .r1), .xfer d2 (some .r2), .xfer d3 (some .r3),
   .csd (.pair c)]

/-- A `W-TRI` frame with the given dummy bytes (R93, R143). -/
def tripleFrame (c : TripleCmd) (d0 d1 d2 : Byte) : List Uop :=
  [.csa, .xfer (tripleByte c) none, .xfer d0 (some .r0), .xfer d1 (some .r1), .xfer d2 (some .r2), .csd (.sample c)]

/-- `CONFIG` (R91, R141). -/
def configUops : List Uop := [.csa, .xfer 0x74#8 none, .xfer 0x43#8 none, .csd .nothing]

/-- `READPAIR c` (R142). -/
def readpairUops (p : Params) (c : PairCmd) : List Uop := pairFrame c p.dummy p.dummy p.dummy p.dummy

/-- `READTRIPLE c` (R143). -/
def readtripleUops (p : Params) (c : TripleCmd) : List Uop := tripleFrame c p.dummy p.dummy p.dummy

/-- `LOADCAL` (R160): `0x88`, `0x8A`, `0x8E`, in that order. -/
def loadcalUops (p : Params) : List Uop := readpairUops p .c88 ++ readpairUops p .c8A ++ readpairUops p .c8E

/-- `BOOT` (R232): `LOADCAL; TCFG; ARM`, the µops `BOOT0 .. BOOT22`. -/
def bootUops (p : Params) : List Uop := loadcalUops p ++ [.tcfg, .arm]

/-- One polling cycle (R233), the µops `POLL0 .. POLL23`; the publications in `PUBLISH_ORDER` (R238). -/
def pollUops (p : Params) : List Uop :=
  configUops ++ readtripleUops p .cFA ++ readtripleUops p .cFB ++ [.compt, .compp] ++ p.publishOrder.toList.map .pub

/-- `SHOW g` as µops (R108). -/
def showUops (g : Byte) : List Uop := [.latd, .xfer g none, .lata]

end Sys2Proof.Machine
end

