-- ==== Sys2Proof/Machine/MainLine.lean ====
section
/-! DEFINITION. The main-line sequence (45_main_sequence.md): `BOOT` and `POLL`, the µop at each position of `MSEQ`, the
successor of a position (R240), and one step of `MAIN` (R241). -/

namespace Sys2Proof.Machine

open Sys2Proof

/-- How many `IDLE` µops the environment's listed entries ask for: the `true`s before the first `false` (R233, R239). -/
def idleCount : List Bool → Nat
  | true :: r => idleCount r + 1
  | false :: _ => 0
  | [] => 0

/-- The entries after those. -/
def idleRest : List Bool → List Bool
  | true :: r => idleRest r
  | false :: r => r
  | [] => []

/-- `BOOT` (R232). -/
def execBoot (s : State) : Result := runUops (bootUops s.params) s

/-- `POLL` (R233): 24 µops, then zero or more `IDLE`. -/
def execPoll (s : State) : Result :=
  runUops (pollUops s.params ++ List.replicate (idleCount s.sched.idles) .idle)
    (setIdles (idleRest s.sched.idles) s)

/-- The boot phase has 23 µops (R230, R232). -/
theorem bootUops_length (p : Params) : (bootUops p).length = 23 := rfl

/-- One polling cycle has 24 µops (R230, R233). -/
theorem pollUops_length (p : Params) : (pollUops p).length = 24 := by
  simp [pollUops, configUops, readtripleUops, tripleFrame]

/-- The µop at a position of `MSEQ` (R230, R232, R233). -/
def mseqUop (p : Params) (m : MSeq) : Uop :=
  match m with
  | .boot i => (bootUops p)[i.val]'(by rw [bootUops_length]; exact i.isLt)
  | .poll i => (pollUops p)[i.val]'(by rw [pollUops_length]; exact i.isLt)
  | .idle => .idle

/-- `POLL0` or `IDLE`, as the environment chooses (R240, R239). -/
def idleOrPoll (b : Bool) : MSeq := if b then .idle else .poll 0

/-- The successor of a position (R240), given whether the environment chooses to idle. -/
def mseqNext (b : Bool) (m : MSeq) : MSeq :=
  match m with
  | .boot i => if h : i.val + 1 < 23 then .boot ⟨i.val + 1, h⟩ else .poll 0
  | .poll i => if h : i.val + 1 < 24 then .poll ⟨i.val + 1, h⟩ else idleOrPoll b
  | .idle => idleOrPoll b

/-- Whether leaving a position takes one of the environment's idling choices (R240). -/
def choosesIdle (m : MSeq) : Bool :=
  match m with
  | .boot _ => false
  | .poll i => decide (i.val = 23)
  | .idle => true

/-- `MSEQ` advanced (R230: "After a µop completes, `MSEQ` becomes the successor"). -/
def advanceMseq (s : State) : State :=
  { s with
    mseq := mseqNext s.sched.nextIdle s.mseq
    sched := if choosesIdle s.mseq then s.sched.afterIdle else s.sched }

/-- R241 (1): the µop at `MSEQ`, then the advance; a hung `XFER` keeps the position (R240). -/
def mainUop (s : State) : Result :=
  andThen (runUop (mseqUop s.params s.mseq) s) (fun t => .next (advanceMseq t))

end Sys2Proof.Machine
end

