-- ==== Sys2Proof/Machine/Scanner.lean ====
section
/-! DEFINITION. DisplayScanner (44_display_scanner.md): `SHOW`, `TICK`, and one operation per scan state. A scan state's row
is the tick that its value of `SCAN` selects: its action, then its next state, whatever `SCAN` held (log entry 10). -/

namespace Sys2Proof.Machine

open Sys2Proof

/-- `SHOW g` (R204). -/
def execShowg (g : Byte) (s : State) : Result := .next (showGlyph g s)

/-- `TICK` (R208). -/
def execTick (s : State) : Result := .next (tick s)

/-- `SCAN.0` (R213): shows `GLYPH[TT]`; next state 1. -/
def execScan0 (s : State) : Result := .next (tickIn 0 s)

/-- `SCAN.1` (R214): shows `GLYPH[TO]`; next state 2. -/
def execScan1 (s : State) : Result := .next (tickIn 1 s)

/-- `SCAN.2` (R215): shows `GLYPH_DP`; next state 3. -/
def execScan2 (s : State) : Result := .next (tickIn 2 s)

/-- `SCAN.3` (R216): shows `GLYPH[TH]`; next state 4. -/
def execScan3 (s : State) : Result := .next (tickIn 3 s)

/-- `SCAN.4` (R217): shows `GLYPH[11]` ("C"); next state 5. -/
def execScan4 (s : State) : Result := .next (tickIn 4 s)

/-- `SCAN.5` (R218): shows `GLYPH[PH]`; next state 6. -/
def execScan5 (s : State) : Result := .next (tickIn 5 s)

/-- `SCAN.6` (R219): shows `GLYPH[PT]`; next state 7. -/
def execScan6 (s : State) : Result := .next (tickIn 6 s)

/-- `SCAN.7` (R220): shows `GLYPH[PO]`; next state 8. -/
def execScan7 (s : State) : Result := .next (tickIn 7 s)

/-- `SCAN.8` (R221): shows `GLYPH[10]` ("P"); next state 9. -/
def execScan8 (s : State) : Result := .next (tickIn 8 s)

/-- `SCAN.9` (R222): shows nothing; next state 0. -/
def execScan9 (s : State) : Result := .next (tickIn 9 s)

end Sys2Proof.Machine
end

