-- ==== Sys2Proof/Machine/Sensor.lean ====
section
/-! DEFINITION. SensorRegisterProtocol (41_sensor_protocol.md) and CalibrationStore (42_calibration.md): `CONFIG`,
`READPAIR`, `READTRIPLE`, `LOADCAL`, as macros over µops; a tick may be taken between any two of them (R71). -/

namespace Sys2Proof.Machine

open Sys2Proof

/-- `CONFIG` (R141). -/
def execConfig (s : State) : Result := runUops configUops s

/-- `READPAIR c` (R142); an operand outside R102's set is refused. -/
def execReadpair (c : Byte) (s : State) : Result :=
  match pairCmdOf c with
  | some pc => runUops (readpairUops s.params pc) s
  | none => .refused .badOperand

/-- `READTRIPLE c` (R143); an operand outside R102's set is refused. -/
def execReadtriple (c : Byte) (s : State) : Result :=
  match tripleCmdOf c with
  | some tc => runUops (readtripleUops s.params tc) s
  | none => .refused .badOperand

/-- `LOADCAL` (R160). -/
def execLoadcal (s : State) : Result := runUops (loadcalUops s.params) s

end Sys2Proof.Machine
end

