-- ==== Sys2Proof/Machine/Wire.lean ====
section
/-! DEFINITION. The wire frames of spec/opcode_table.json (30_encoding.md R91 to R94, R109) as operations: the bytes of the
row shifted out inside one envelope, and the row's results. With every dummy byte equal to `DUMMY` a sensor frame is the
frame the block issues; other bytes make it foreign to the sensor (R66; log entry 9). -/

namespace Sys2Proof.Machine

open Sys2Proof

/-- `WIRE.CFG` (R91). -/
def execWireCfg (s : State) : Result := runUops configUops s

/-- `WIRE.PAIR.88` (R92): results `T1`, `T2`. -/
def execWirePair88 (d0 d1 d2 d3 : Byte) (s : State) : Result := runUops (pairFrame .c88 d0 d1 d2 d3) s

/-- `WIRE.PAIR.8A` (R92): results `T3`, `P1`. -/
def execWirePair8A (d0 d1 d2 d3 : Byte) (s : State) : Result := runUops (pairFrame .c8A d0 d1 d2 d3) s

/-- `WIRE.PAIR.8E` (R92): results `P2`, `P3`. -/
def execWirePair8E (d0 d1 d2 d3 : Byte) (s : State) : Result := runUops (pairFrame .c8E d0 d1 d2 d3) s

/-- `WIRE.TRI.FA` (R93): result `ADCT`. -/
def execWireTriFA (d0 d1 d2 : Byte) (s : State) : Result := runUops (tripleFrame .cFA d0 d1 d2) s

/-- `WIRE.TRI.FB` (R93): result `ADCP`. -/
def execWireTriFB (d0 d1 d2 : Byte) (s : State) : Result := runUops (tripleFrame .cFB d0 d1 d2) s

/-- `WIRE.GLYPH` (R94): one byte framed by the display latch. -/
def execWireGlyph (g : Byte) (s : State) : Result := .next (showGlyph g s)

end Sys2Proof.Machine
end

