-- ==== Sys2Proof/Machine/Dispatch.lean ====
section
/-! DEFINITION. One arm per constructor of `Instr`: each calls its meaning. -/

namespace Sys2Proof.Machine

open Sys2Proof

def exec (i : Instr) (s : State) : Host.Outcome State Fault Refusal :=
  match i with
  | .idle => Sys2Proof.Machine.execIdle s
  | .csa => Sys2Proof.Machine.execCsa s
  | .csd => Sys2Proof.Machine.execCsd s
  | .latd => Sys2Proof.Machine.execLatd s
  | .lata => Sys2Proof.Machine.execLata s
  | .xfer b => Sys2Proof.Machine.execXfer b s
  | .config => Sys2Proof.Machine.execConfig s
  | .readpair c => Sys2Proof.Machine.execReadpair c s
  | .readtriple c => Sys2Proof.Machine.execReadtriple c s
  | .loadcal => Sys2Proof.Machine.execLoadcal s
  | .compt => Sys2Proof.Machine.execCompt s
  | .compp => Sys2Proof.Machine.execCompp s
  | .pub k => Sys2Proof.Machine.execPub k s
  | .showg g => Sys2Proof.Machine.execShowg g s
  | .tick => Sys2Proof.Machine.execTick s
  | .tcfg => Sys2Proof.Machine.execTcfg s
  | .arm => Sys2Proof.Machine.execArm s
  | .poll => Sys2Proof.Machine.execPoll s
  | .boot => Sys2Proof.Machine.execBoot s
  | .wireCfg => Sys2Proof.Machine.execWireCfg s
  | .wirePair88 d0 d1 d2 d3 => Sys2Proof.Machine.execWirePair88 d0 d1 d2 d3 s
  | .wirePair8A d0 d1 d2 d3 => Sys2Proof.Machine.execWirePair8A d0 d1 d2 d3 s
  | .wirePair8E d0 d1 d2 d3 => Sys2Proof.Machine.execWirePair8E d0 d1 d2 d3 s
  | .wireTriFA d0 d1 d2 => Sys2Proof.Machine.execWireTriFA d0 d1 d2 s
  | .wireTriFB d0 d1 d2 => Sys2Proof.Machine.execWireTriFB d0 d1 d2 s
  | .wireGlyph g => Sys2Proof.Machine.execWireGlyph g s
  | .scan0 => Sys2Proof.Machine.execScan0 s
  | .scan1 => Sys2Proof.Machine.execScan1 s
  | .scan2 => Sys2Proof.Machine.execScan2 s
  | .scan3 => Sys2Proof.Machine.execScan3 s
  | .scan4 => Sys2Proof.Machine.execScan4 s
  | .scan5 => Sys2Proof.Machine.execScan5 s
  | .scan6 => Sys2Proof.Machine.execScan6 s
  | .scan7 => Sys2Proof.Machine.execScan7 s
  | .scan8 => Sys2Proof.Machine.execScan8 s
  | .scan9 => Sys2Proof.Machine.execScan9 s

end Sys2Proof.Machine
end

