-- ==== Sys2Proof/Machine/Fetch.lean ====
section
/-! DEFINITION. Reading a placed operation. The hardware fetches nothing (20_memory.md R77): its program is `MSEQ`'s fixed
sequence. Operations written as bytes (30_encoding.md R101, R102) are placed from outside in `State.program` and are read
here, one at each move of the running context, before the sequence goes on (log entry 6). -/

namespace Sys2Proof.Machine

open Sys2Proof

/-- The operation at the front of the placed bytes. -/
def fetched (s : State) : DecodeResult := decode s.program.space s.program.bytes

/-- The placed bytes that remain. -/
def setBytes (r : List Byte) (s : State) : State := { s with program := { s.program with bytes := r } }

/-- A table word placed as the next operation, and what the very next step needs to run it: the block moves next, it is not
hung, and no tick is taken first. -/
def placeWord (s : State) (nbits w : Nat) : State :=
  { s with
    program := ⟨tableSpace nbits w, wordBytes (wordByteCount nbits) w⟩
    sched := { s.sched with arrivals := false :: s.sched.arrivals }
    hung := false
    tickPend := s.tickPend && !irqReady s }

/-- What a context does when no placed operation is left: `MAIN` performs the µop at `MSEQ` (R241); the handler has ended,
so it returns (R272: "return is the end of `TICK`"; log entry 11). -/
def ownMove (s : State) : Result :=
  match s.ctx with
  | .main => mainUop s
  | .isr => .next (irqReturn s)

end Sys2Proof.Machine
end

