-- ==== Sys2Proof/Machine/Step.lean ====
section
/-! DEFINITION. The step relation of 45_main_sequence.md R241 as a function of the state: the environment's entries in the
state say which of its three kinds of step is taken. -/

namespace Sys2Proof.Machine

open Sys2Proof

/-- The running context's next operation: a placed one if there is one, else its own. -/
def runNext (s : State) : Host.Outcome State Fault Refusal :=
  match s.program.bytes with
  | [] => ownMove s
  | _ :: _ =>
    match fetched s with
    | .ok i rest => exec i (setBytes rest s)
    | .reject e => .refused (.undecodable e)

/-- A move of the block: a hung block stays as it is (R311: "no step leaves it"); a ready interrupt has priority (R241 (2),
R266); else the context's next operation. -/
def blockMove (s : State) : Host.Outcome State Fault Refusal :=
  if s.hung then .next s
  else if irqReady s then .next (runIsr s)
  else runNext s

/-- One step (R241): a compare-match event, or a move of the block, as the environment chooses. The choice is not fair by
itself (R243). -/
def step (s : State) : Host.Outcome State Fault Refusal :=
  if s.sched.nextArrival then .next (compareMatch (takeArrival s)) else blockMove (takeArrival s)

/-- The operation of a table word placed where the next step reads it. -/
def State.withFetchWord (s : State) (nbits w : Nat) : State := placeWord s nbits w

end Sys2Proof.Machine
end

