-- ==== Sys2Proof/Safety.lean ====
section
/-! DEFINITION. What a safe run is, in the terms the claims use: the block's invariants and the premises a claim about the
environment may name (45_main_sequence.md R243: "only as a named premise"). -/

namespace Sys2Proof.Machine

open Sys2Proof

/-- An outcome that is no stop. -/
def Goes (o : Host.Outcome State Fault Refusal) : Prop := ∃ t, o = .next t

/-- No compare-match arrives at any later move. -/
abbrev NoArrivals (s : State) : Prop := s.sched.arrivals = [] ∧ s.sched.arrivalsOnward = .never

/-- No compare-match arrives and no tick is about to be taken: what a claim on one operation's own effect assumes, so that
nothing is interleaved with it. -/
abbrev Undisturbed (s : State) : Prop := NoArrivals s ∧ irqReady s = false

/-- The part of R243 that a placed macro needs: past the listed moves, whatever compare-matches they hold, the environment lets
the block go on at every boundary between two of its µops. -/
abbrev BoundariesEnd (s : State) : Prop :=
  match s.sched.arrivalsOnward with
  | .never => True
  | .always => False
  | .free n => ∀ k, n ≤ k → (Config.freeBoundary k).2 = false

/-- The idling that the listed entries ask for ends in `POLL0`: the last part of R243, for a claim on one cycle. -/
abbrev IdlingEnds (s : State) : Prop := false ∈ s.sched.idles ∨ s.sched.idlesOnward = .never

/-- The next move is the block's, and it is a step of `MAIN`: no tick has priority over it (R241, R266). -/
abbrev MainMovesNext (s : State) : Prop :=
  s.hung = false ∧ s.ctx = .main ∧ s.sched.nextArrival = false ∧ irqReady s = false

/-- The next move is the block's, and it takes the pending tick (R241 (2)). -/
abbrev TickTakenNext (s : State) : Prop := s.hung = false ∧ s.sched.nextArrival = false ∧ irqReady s = true

/-- A state that the machine comes to. -/
def Reaches (s t : State) : Prop := ∃ n, Sys2Proof.core.run n s = .next t

/-- Fairness, "the only timing assumption a model may take, and only as a named premise" (R243): "if the clock always runs, every
enabled `MAIN` step is eventually taken, a pending tick is eventually taken once `IE = 1`, and `IDLE` does not repeat for
ever". -/
structure Fair (s : State) : Prop where
  clock_runs : s.sched.clock = none
  main_taken : ∀ t, Reaches s t → t.hung = false → t.ctx = .main → ∃ u, Reaches t u ∧ MainMovesNext u
  tick_taken : ∀ t, Reaches s t → t.hung = false → irqReady t = true → ∃ u, Reaches t u ∧ TickTakenNext u
  idling_ends : ∀ n, ∃ m, n ≤ m ∧ (Schedule.afterIdle^[m] s.sched).nextIdle = false

/-- Whether `CS` is asserted when `MAIN` is about to perform a position's µop: an envelope is open from the position after its
`CSA` to its `CSD` (R140, R232, R233, R313). -/
def inEnvelope : MSeq → Bool
  | .boot i => decide (i.val < 21 ∧ i.val % 7 ≠ 0)
  | .poll i => decide ((1 ≤ i.val ∧ i.val ≤ 3) ∨ (5 ≤ i.val ∧ i.val ≤ 9) ∨ (11 ≤ i.val ∧ i.val ≤ 15))
  | .idle => false

/-- A position's place in the order of the boot phase: `BOOTi` is `i`, every later position 23 (R232). -/
def bootPlace : MSeq → Nat
  | .boot i => i.val
  | .poll _ => 23
  | .idle => 23

/-- A position's place in the order of a polling cycle: `POLLi` is `i`; elsewhere 0 (R233). -/
def pollPlace : MSeq → Nat
  | .poll i => i.val
  | .boot _ => 0
  | .idle => 0

/-- What holds of every reachable state, whatever operations are placed: `DONE` is `CNT = 8` (R30); `ENV` is empty while `CS`
is deasserted (R45); the handler is entered and left within one step, so a state in `ISR` is a hung one, with `IE = 0` (R270,
R241, R311); a hung block has `IE = 0` and `DONE = 0` (R311); nothing is pending before the timer runs (R38, R264); `CMP` fits
its width (R37). -/
structure BlockInv (s : State) : Prop where
  done_iff : s.done = true ↔ s.cnt = 8
  env_closed : s.cs = .deasserted → s.env = []
  isr_hung : s.ctx = .isr → s.hung = true
  hung_masked : s.hung = true → s.ie = false ∧ s.done = false
  pending_runs : s.tickPend = true → s.trun = true
  cmp_fits : s.cmp < 2 ^ s.params.cmpW

/-- What holds while the block runs its own fixed sequence, in a state that is not hung: `MAIN` runs, the latch is at rest, the
chip-select is asserted exactly inside the envelopes, the interrupt system is enabled exactly after `ARM` and the timer runs
exactly after `TCFG`, and every register that a later µop reads has been written (R303, R305). -/
structure SequenceRunning (s : State) : Prop where
  ctx_main : s.ctx = .main
  latch_rest : s.latch = .asserted
  cs_envelope : s.cs = .asserted ↔ inEnvelope s.mseq = true
  ie_armed : s.ie = true ↔ 23 ≤ bootPlace s.mseq
  trun_set : s.trun = true ↔ 22 ≤ bootPlace s.mseq
  first_pair : 7 ≤ bootPlace s.mseq → s.t1.written = true ∧ s.t2.written = true
  second_pair : 14 ≤ bootPlace s.mseq → s.t3.written = true ∧ s.p1.written = true
  third_pair : 21 ≤ bootPlace s.mseq → s.p2.written = true ∧ s.p3.written = true
  temperature_sample : 10 ≤ pollPlace s.mseq → s.adct.written = true
  pressure_sample : 16 ≤ pollPlace s.mseq → s.adcp.written = true

/-- The fixed sequence's invariant: no operation is placed, the parameters meet R274, no compensation has read an unwritten
register (R303: "In the fixed sequence none is read before it is written"), and the block is hung or in order. -/
structure SequenceInv (s : State) : Prop where
  nothing_placed : s.program.bytes = []
  timer_ok : s.params.timerOk
  nothing_misread : s.misreads = []
  in_order : s.hung = true ∨ SequenceRunning s

/-- The clock entry after `n` more pulses. -/
def clockAfter (n : Nat) (s : State) : Schedule := { s.sched with clock := s.sched.clock.map (· - n) }

/-- The byte shifted in by the next `XFER` (R121): the sensor's reply while `CS` is asserted, else a free byte. -/
def nextReply (s : State) : Byte :=
  if s.cs = .asserted then sensorReply s.params s.env s.draws else Config.anyByte s.draws

/-- The events of a clean `W-PAIR` frame whose first byte takes draw `n` (R92). -/
def pairTrace (p : Params) (c : Byte) (n : Nat) : List Event :=
  [.cs .asserted, .xfer c (Config.anyByte n), .xfer p.dummy (Config.sensorReg (n + 1) c 0),
   .xfer p.dummy (Config.sensorReg (n + 2) c 1), .xfer p.dummy (Config.sensorReg (n + 3) c 2),
   .xfer p.dummy (Config.sensorReg (n + 4) c 3), .cs .deasserted]

/-- The events of a clean `W-TRI` frame whose first byte takes draw `n` (R93). -/
def tripleTrace (p : Params) (c : Byte) (n : Nat) : List Event :=
  [.cs .asserted, .xfer c (Config.anyByte n), .xfer p.dummy (Config.sensorReg (n + 1) c 0),
   .xfer p.dummy (Config.sensorReg (n + 2) c 1), .xfer p.dummy (Config.sensorReg (n + 3) c 2), .cs .deasserted]

/-- The events of a `W-CFG` frame whose first byte takes draw `n` (R91). -/
def configTrace (n : Nat) : List Event :=
  [.cs .asserted, .xfer 0x74#8 (Config.anyByte n), .xfer 0x43#8 (Config.anyByte (n + 1)), .cs .deasserted]

/-- The state after a `W-PAIR` frame with no tick in it: command `c`, dummy bytes `d0 .. d3`, replies `r0 .. r3`; without the
frame's results. -/
def pairFrameEnd (c d0 d1 d2 d3 r0 r1 r2 r3 : Byte) (s : State) : State :=
  { s with
    cs := .deasserted
    env := []
    sr := r3
    cnt := 8
    done := true
    dsr := d3
    ieSaveX := s.ie
    draws := s.draws + 5
    replies := ⟨r0, r1, r2, r3⟩
    sched := clockAfter 40 s
    hist := s.hist ++ [.cs .asserted, .xfer c (Config.anyByte s.draws), .xfer d0 r0, .xfer d1 r1, .xfer d2 r2, .xfer d3 r3,
      .cs .deasserted] }

/-- The state after a `W-TRI` frame with no tick in it: command `c`, dummy bytes `d0 .. d2`, replies `r0 .. r2`; without the
frame's result. -/
def tripleFrameEnd (c d0 d1 d2 r0 r1 r2 : Byte) (s : State) : State :=
  { s with
    cs := .deasserted
    env := []
    sr := r2
    cnt := 8
    done := true
    dsr := d2
    ieSaveX := s.ie
    draws := s.draws + 4
    replies := { s.replies with r0 := r0, r1 := r1, r2 := r2 }
    sched := clockAfter 32 s
    hist := s.hist ++ [.cs .asserted, .xfer c (Config.anyByte s.draws), .xfer d0 r0, .xfer d1 r1, .xfer d2 r2,
      .cs .deasserted] }

/-- The state after a `W-CFG` frame with no tick in it. -/
def configFrameEnd (s : State) : State :=
  { s with
    cs := .deasserted
    env := []
    sr := Config.anyByte (s.draws + 1)
    cnt := 8
    done := true
    dsr := 0x43#8
    ieSaveX := s.ie
    draws := s.draws + 2
    sched := clockAfter 16 s
    hist := s.hist ++ configTrace s.draws }

/-- The state after a `W-GLYPH` frame of `g` (R204). -/
def glyphFrameEnd (g : Byte) (s : State) : State :=
  { s with
    latch := .asserted
    dout := g
    dsr := g
    sr := nextReply s
    cnt := 8
    done := true
    env := if s.cs = .asserted then s.env ++ [g] else s.env
    ieSaveX := s.ie
    draws := s.draws + 1
    sched := clockAfter 8 s
    hist := s.hist ++ [.latch .deasserted, .xfer g (nextReply s), .latch .asserted, .commit g] }

/-- The committed bytes of a list of events, in order (R205: "the model's observable is the sequence of `commit` events"). -/
def commits : List Event → List Byte
  | [] => []
  | .commit v :: r => v :: commits r
  | _ :: r => commits r

/-- The last value committed in a list of events, or `d` if there is none (R46, R68). -/
def lastCommit (d : Byte) : List Event → Byte
  | [] => d
  | .commit v :: r => lastCommit v r
  | _ :: r => lastCommit d r

/-- A relation between the outcomes of two steps: both go on to related states, or both stop for the same reason. -/
def Matched (r : State → State → Prop) : Host.Outcome State Fault Refusal → Host.Outcome State Fault Refusal → Prop
  | .next s, .next t => r s t
  | .fault a, .fault b => a = b
  | .refused a, .refused b => a = b
  | _, _ => False

end Sys2Proof.Machine
end

