-- ==== Sys2Proof/Certificates/Slice0/Obligations.lean ====
section
/-! DEFINITION. The statements of this model, each from the numbered rules of spec/ named in its docstring. A statement about
every state is a statement about every parameter value, every environment and every free value. -/

open Sys2Proof Sys2Proof.Machine

/-! ### Encoding -/

/-- R101, R102, R91 to R94, R100: decoding the bytes of a well-formed operation in its own space gives it back, whatever
follows. -/
def Obligations.DecodeOfEncodeIsTheOperation : Prop :=
  ∀ (i : Instr) (rest : List Byte), i.wf = true → decode i.space (encode i ++ rest) = .ok i rest

/-- R101, R102: what decodes is a well-formed operation of that space, and the bytes read are its encoding. -/
def Obligations.DecodedBytesAreTheEncoding : Prop :=
  ∀ (sp : Space) (bs rest : List Byte) (i : Instr), decode sp bs = .ok i rest →
    i.wf = true ∧ i.space = sp ∧ bs = encode i ++ rest

/-- R102, R104, R103: a code outside R101's table spells no operation and is refused; so is an operand outside the listed set, a
sensor frame whose first byte the block never issues, and a `SCAN` value above 9. -/
def Obligations.CodesOutsideTheTableAreRejected : Prop :=
  (∀ (c : Byte) (r : List Byte),
    c ∉ [0x00#8, 0x01#8, 0x02#8, 0x03#8, 0x04#8, 0x05#8, 0x10#8, 0x11#8, 0x12#8, 0x13#8, 0x20#8, 0x21#8, 0x22#8, 0x30#8,
      0x31#8, 0x40#8, 0x41#8, 0x42#8, 0x43#8] →
    decode .code (c :: r) = .reject (.unknownCode c)) ∧
  (∀ (c : Byte) (r : List Byte), c ∉ [0x88#8, 0x8A#8, 0x8E#8] →
    decode .code (0x11#8 :: c :: r) = .reject (.badPairCommand c)) ∧
  (∀ (c : Byte) (r : List Byte), c ∉ [0xFA#8, 0xFB#8] →
    decode .code (0x12#8 :: c :: r) = .reject (.badTripleCommand c)) ∧
  (∀ (k : Byte) (r : List Byte), 5 < k.toNat → decode .code (0x22#8 :: k :: r) = .reject (.badDigitSelector k)) ∧
  (∀ (c : Byte) (r : List Byte), c ∉ [0x74#8, 0x88#8, 0x8A#8, 0x8E#8, 0xFA#8, 0xFB#8] →
    decode .sensorFrame (c :: r) = .reject .unknownFrame) ∧
  (∀ (v : Byte) (r : List Byte), 9 < v.toNat → decode .scanState (v :: r) = .reject (.scanAboveNine v))

/-- R101, R91 to R93, R100: some words written out from the spec's encodings decode to what they stand for. Reading a bare
8-bit word first as an operation code, although it also spells a glyph frame or a scan state, is the model's choice (log
entry 7). -/
def Obligations.WrittenOutWordsDecode : Prop :=
  decodeTableWord 8 0x01 = some .csa ∧ decodeTableWord 16 0x055B = some (.xfer 0x5B#8) ∧
  decodeTableWord 16 0x118A = some (.readpair 0x8A#8) ∧ decodeTableWord 8 0x20 = some .compt ∧
  decodeTableWord 16 0x2203 = some (.pub 3#8) ∧ decodeTableWord 8 0x31 = some .tick ∧
  decodeTableWord 8 0x40 = some .tcfg ∧ decodeTableWord 8 0x43 = some .boot ∧
  decodeTableWord 16 0x7443 = some .wireCfg ∧ decodeTableWord 32 0xFA000000 = some (.wireTriFA 0#8 0#8 0#8) ∧
  decodeTableWord 4 0x8 = some .scan8 ∧ decodeTableWord 16 0x1190 = none

/-! ### Reset -/

/-- R47, R301: the state after reset, for every parameter choice, every value of what R47 leaves unspecified, and every
environment. -/
def Obligations.ResetState : Prop :=
  ∀ (p : Params) (v : PowerOn) (e : Schedule), let s := State.resetWith p v e
    s.cnt = 0 ∧ s.done = false ∧ s.scan = 0 ∧ s.mseq = .boot 0 ∧ s.ctx = .main ∧ s.ie = false ∧ s.tickPend = false ∧
    s.trun = false ∧ s.cs = .deasserted ∧ s.latch = .asserted ∧ s.env = [] ∧ s.hist = [] ∧
    s.t1.written = false ∧ s.t2.written = false ∧ s.t3.written = false ∧ s.p1.written = false ∧ s.p2.written = false ∧
    s.p3.written = false ∧ s.adct.written = false ∧ s.adcp.written = false

/-! ### Transport -/

/-- R121, R123: an `XFER` whose eight pulses happen shifts `b` out and the reply in, sets `DONE`, appends to `ENV` and `HIST`,
leaves `IE` as found, and changes nothing else. -/
def Obligations.XferExchangesOneByte : Prop :=
  ∀ (b : Byte) (s : State), clockGives 8 s = true →
    exec (.xfer b) s = .next { s with
      sr := nextReply s, cnt := 8, done := true, dsr := b, ieSaveX := s.ie, draws := s.draws + 1
      env := if s.cs = .asserted then s.env ++ [b] else s.env
      hist := s.hist ++ [.xfer b (nextReply s)]
      sched := clockAfter 8 s }

/-- R66: in a clean read frame the reply is `REG(c, k)`, for each of the five read commands and each reply position; in every
other situation it is a free byte: the first byte of an envelope, a first byte that is no read command, any byte after a foreign
one, a byte past the reply. -/
def Obligations.SensorReplyContract : Prop :=
  ∀ (p : Params) (moment : Nat), let due := fun (c : Byte) (k : Nat) =>
      (c = 0x88#8 ∨ c = 0x8A#8 ∨ c = 0x8E#8) ∧ k < 4 ∨ (c = 0xFA#8 ∨ c = 0xFB#8) ∧ k < 3
    (∀ c k, due c k → sensorReply p (c :: List.replicate k p.dummy) moment = Config.sensorReg moment c k) ∧
    (∀ env, (∀ c k, due c k → env ≠ c :: List.replicate k p.dummy) → sensorReply p env moment = Config.anyByte moment)

/-- R122: the eight pulses of a byte, in either bit order, leave the incoming byte in `SR` and the outgoing byte in `DSR`, with
`CNT = 8`: the byte level is their composition. -/
def Obligations.EightPulsesComposeToTheByte : Prop :=
  ∀ (b rin : Byte) (s : State), let t := pulses 8 b rin (xferStart b s)
    t.sr = rin ∧ t.dsr = b ∧ t.cnt = 8

/-- R124, R311: an `XFER` whose clock stops after `n < 8` pulses hangs: `IE = 0`, `DONE = 0`, `CNT = n`, lines, `DOUT`, `SCAN`,
`MSEQ`, `TICK_PEND`, `ENV`, `HIST` and every data register as they were. -/
def Obligations.StalledClockHangsXfer : Prop :=
  ∀ (b : Byte) (s : State) (n : Nat), s.sched.clock = some n → n < 8 →
    ∃ t, exec (.xfer b) s = .next t ∧ t.hung = true ∧ t.ie = false ∧ t.done = false ∧ t.cnt.val = n ∧ t.cs = s.cs ∧
      t.latch = s.latch ∧ t.dout = s.dout ∧ t.scan = s.scan ∧ t.mseq = s.mseq ∧ t.ctx = s.ctx ∧ t.tickPend = s.tickPend ∧
      t.trun = s.trun ∧ t.cmp = s.cmp ∧ t.env = s.env ∧ t.hist = s.hist ∧ t.digits = s.digits ∧ t.results = s.results ∧
      t.replies = s.replies ∧ t.t1 = s.t1 ∧ t.t2 = s.t2 ∧ t.t3 = s.t3 ∧ t.p1 = s.p1 ∧ t.p2 = s.p2 ∧ t.p3 = s.p3 ∧
      t.adct = s.adct ∧ t.adcp = s.adcp

/-- R311: "no step leaves it": a hung block stays hung for ever; its steps only consume environment entries, and
`TICK_PEND` is "set by the next compare-match and never taken". -/
def Obligations.HungBlockStaysHung : Prop :=
  ∀ (n : Nat) (s : State), s.hung = true →
    ∃ t, Sys2Proof.core.run n s = .next t ∧
      t = { s with tickPend := t.tickPend, sched := Schedule.afterArrival^[n] s.sched } ∧
      (t.tickPend = true ↔
        s.tickPend = true ∨ (s.trun = true ∧ ∃ k, k < n ∧ (Schedule.afterArrival^[k] s.sched).nextArrival = true))

/-- R126, R127, U15: `CSA` and `CSD` set the line, empty `ENV` and record the change, and nothing else; with the line already
there a model refuses them. -/
def Obligations.ChipSelectOperations : Prop :=
  ∀ s : State,
    (s.cs = .deasserted → exec .csa s = .next { s with
      cs := .asserted, env := [], hist := s.hist ++ [.cs .asserted] }) ∧
    (s.cs = .asserted → exec .csd s = .next { s with
      cs := .deasserted, env := [], hist := s.hist ++ [.cs .deasserted] }) ∧
    (s.cs = .asserted → exec .csa s = .refused .csaWhileAsserted) ∧
    (s.cs = .deasserted → exec .csd s = .refused .csdWhileDeasserted)

/-- R128, R129 with R68: `LATD` opens a glyph frame and keeps `DOUT`; `LATA` from a deasserted latch commits `DSR`. The third
clause, an already asserted latch, is the model's reading of R68 (log entry 8). -/
def Obligations.LatchOperations : Prop :=
  ∀ s : State,
    exec .latd s = .next { s with latch := .deasserted, hist := s.hist ++ [.latch .deasserted] } ∧
    (s.latch = .deasserted → exec .lata s = .next { s with
      latch := .asserted, dout := s.dsr, hist := s.hist ++ [.latch .asserted, .commit s.dsr] }) ∧
    (s.latch = .asserted → exec .lata s = .next { s with hist := s.hist ++ [.latch .asserted] })

/-- R68, R46, R317: whatever a step does, `HIST` only grows, and `DOUT` is the last value it committed: "`DOUT` changes at no
other time". -/
def Obligations.OutputIsTheLastCommit : Prop :=
  ∀ s t : State, step s = .next t → ∃ evs, t.hist = s.hist ++ evs ∧ t.dout = lastCommit s.dout evs

/-- R64, R122: while the clock always runs, no step can tell the bit order: every byte-level rule is independent of
`BIT_ORDER`. -/
def Obligations.StepsIndependentOfBitOrder : Prop :=
  ∀ (o : BitOrder) (s : State), s.sched.clock = none →
    Matched (fun a b => b = { a with params := { a.params with bitOrder := o } }) (step s)
      (step { s with params := { s.params with bitOrder := o } })

/-! ### Sensor frames and calibration -/

/-- R62, R63, R96, R97, R144: a `READPAIR` output is signed, low byte first; a sample is unsigned, high byte first, its low four
bits the upper four of the third byte, and the source's two descriptions of it agree. -/
def Obligations.OperandAssembly : Prop :=
  (∀ lo hi : Byte, (word16 lo hi).toInt =
    if hi.toNat * 256 + lo.toNat < 32768 then ((hi.toNat * 256 + lo.toNat : Nat) : Int)
    else ((hi.toNat * 256 + lo.toNat : Nat) : Int) - 65536) ∧
  (∀ b0 b1 b2 : Byte,
    (sample20 b0 b1 b2).toNat = b0.toNat * 4096 + b1.toNat * 16 + b2.toNat / 16 ∧
    (sample20 b0 b1 b2).toNat = (b0.toNat * 65536 + b1.toNat * 256 + b2.toNat) / 16)

/-- R141, R91: `CONFIG` with no tick in it: one envelope with `74 43`, and no coefficient, sample or digit changes. -/
def Obligations.ConfigFrame : Prop :=
  ∀ s : State, s.hung = false → Undisturbed s → s.cs = .deasserted → clockGives 16 s = true →
    exec .config s = .next (configFrameEnd s)

/-- R142, R92, R96, R61: `READPAIR` with no tick in it: one envelope, replies `REG(c, 0 .. 3)`, and the two values of the
command's row, assembled low byte first; nothing else changes. -/
def Obligations.ReadpairFrame : Prop :=
  ∀ s : State, s.hung = false → Undisturbed s → s.cs = .deasserted → clockGives 40 s = true →
    let r := fun (c : Byte) (k : Nat) => Config.sensorReg (s.draws + 1 + k) c k
    let endOf := fun (c : Byte) => pairFrameEnd c s.params.dummy s.params.dummy s.params.dummy s.params.dummy
      (r c 0) (r c 1) (r c 2) (r c 3) s
    exec (.readpair 0x88#8) s = .next { endOf 0x88#8 with
      t1 := ⟨r 0x88#8 1 ++ r 0x88#8 0, true⟩, t2 := ⟨r 0x88#8 3 ++ r 0x88#8 2, true⟩ } ∧
    exec (.readpair 0x8A#8) s = .next { endOf 0x8A#8 with
      t3 := ⟨r 0x8A#8 1 ++ r 0x8A#8 0, true⟩, p1 := ⟨r 0x8A#8 3 ++ r 0x8A#8 2, true⟩ } ∧
    exec (.readpair 0x8E#8) s = .next { endOf 0x8E#8 with
      p2 := ⟨r 0x8E#8 1 ++ r 0x8E#8 0, true⟩, p3 := ⟨r 0x8E#8 3 ++ r 0x8E#8 2, true⟩ }

/-- R143, R93, R97, R61: `READTRIPLE` with no tick in it: one envelope, replies `REG(c, 0 .. 2)`, and the sample of the
command's row, high byte first; nothing else changes. -/
def Obligations.ReadtripleFrame : Prop :=
  ∀ s : State, s.hung = false → Undisturbed s → s.cs = .deasserted → clockGives 32 s = true →
    let r := fun (c : Byte) (k : Nat) => Config.sensorReg (s.draws + 1 + k) c k
    let endOf := fun (c : Byte) => tripleFrameEnd c s.params.dummy s.params.dummy s.params.dummy
      (r c 0) (r c 1) (r c 2) s
    exec (.readtriple 0xFA#8) s = .next { endOf 0xFA#8 with
      adct := ⟨r 0xFA#8 0 ++ r 0xFA#8 1 ++ (r 0xFA#8 2).extractLsb' 4 4, true⟩ } ∧
    exec (.readtriple 0xFB#8) s = .next { endOf 0xFB#8 with
      adcp := ⟨r 0xFB#8 0 ++ r 0xFB#8 1 ++ (r 0xFB#8 2).extractLsb' 4 4, true⟩ }

/-- R91 to R93, R109: a sensor frame's row runs its bytes inside one envelope, with no tick in it, whatever its dummy bytes (the
model's choice, log entry 9): the replies are the sensor's answers to the bytes before each, and the results are assembled from them. -/
def Obligations.WireSensorFrames : Prop :=
  ∀ (s : State) (d0 d1 d2 d3 : Byte), s.hung = false → Undisturbed s → s.cs = .deasserted →
    let r := fun (sent : List Byte) => sensorReply s.params sent (s.draws + sent.length)
    let pairEnd := fun (c : Byte) =>
      pairFrameEnd c d0 d1 d2 d3 (r [c]) (r [c, d0]) (r [c, d0, d1]) (r [c, d0, d1, d2]) s
    let tripleEnd := fun (c : Byte) => tripleFrameEnd c d0 d1 d2 (r [c]) (r [c, d0]) (r [c, d0, d1]) s
    (clockGives 16 s = true → exec .wireCfg s = .next (configFrameEnd s)) ∧
    (clockGives 40 s = true →
      exec (.wirePair88 d0 d1 d2 d3) s = .next { pairEnd 0x88#8 with
        t1 := ⟨word16 (pairEnd 0x88#8).replies.r0 (pairEnd 0x88#8).replies.r1, true⟩
        t2 := ⟨word16 (pairEnd 0x88#8).replies.r2 (pairEnd 0x88#8).replies.r3, true⟩ } ∧
      exec (.wirePair8A d0 d1 d2 d3) s = .next { pairEnd 0x8A#8 with
        t3 := ⟨word16 (pairEnd 0x8A#8).replies.r0 (pairEnd 0x8A#8).replies.r1, true⟩
        p1 := ⟨word16 (pairEnd 0x8A#8).replies.r2 (pairEnd 0x8A#8).replies.r3, true⟩ } ∧
      exec (.wirePair8E d0 d1 d2 d3) s = .next { pairEnd 0x8E#8 with
        p2 := ⟨word16 (pairEnd 0x8E#8).replies.r0 (pairEnd 0x8E#8).replies.r1, true⟩
        p3 := ⟨word16 (pairEnd 0x8E#8).replies.r2 (pairEnd 0x8E#8).replies.r3, true⟩ }) ∧
    (clockGives 32 s = true →
      exec (.wireTriFA d0 d1 d2) s = .next { tripleEnd 0xFA#8 with
        adct := ⟨sample20 (r [0xFA#8]) (r [0xFA#8, d0]) (r [0xFA#8, d0, d1]), true⟩ } ∧
      exec (.wireTriFB d0 d1 d2) s = .next { tripleEnd 0xFB#8 with
        adcp := ⟨sample20 (r [0xFB#8]) (r [0xFB#8, d0]) (r [0xFB#8, d0, d1]), true⟩ })

/-- R160, R161: `LOADCAL` with `IE = 0` loads the six coefficients from three clean frames, `88`, `8A`, `8E` in that order,
whatever compare-matches arrive: "the one sensor operation that the bus-sharing hazard cannot touch". That the environment lets
it go on is a named premise (R243). -/
def Obligations.LoadcalLoadsSixCoefficients : Prop :=
  ∀ s : State, BoundariesEnd s → s.hung = false → s.ie = false → s.cs = .deasserted → clockGives 120 s = true →
    let r := fun (frame : Nat) (c : Byte) (k : Nat) => Config.sensorReg (s.draws + 5 * frame + 1 + k) c k
    ∃ t, exec .loadcal s = .next t ∧
      t.t1 = ⟨word16 (r 0 0x88#8 0) (r 0 0x88#8 1), true⟩ ∧ t.t2 = ⟨word16 (r 0 0x88#8 2) (r 0 0x88#8 3), true⟩ ∧
      t.t3 = ⟨word16 (r 1 0x8A#8 0) (r 1 0x8A#8 1), true⟩ ∧ t.p1 = ⟨word16 (r 1 0x8A#8 2) (r 1 0x8A#8 3), true⟩ ∧
      t.p2 = ⟨word16 (r 2 0x8E#8 0) (r 2 0x8E#8 1), true⟩ ∧ t.p3 = ⟨word16 (r 2 0x8E#8 2) (r 2 0x8E#8 3), true⟩ ∧
      t.hist = s.hist ++ pairTrace s.params 0x88#8 s.draws ++ pairTrace s.params 0x8A#8 (s.draws + 5) ++
        pairTrace s.params 0x8E#8 (s.draws + 10) ∧
      t.hung = false ∧ t.done = true ∧ t.cnt = 8 ∧ t.dsr = s.params.dummy ∧ t.cs = .deasserted ∧ t.env = [] ∧
      t.ie = false ∧ t.latch = s.latch ∧ t.dout = s.dout ∧ t.scan = s.scan ∧ t.ctx = s.ctx ∧ t.mseq = s.mseq ∧
      t.trun = s.trun ∧ t.cmp = s.cmp ∧ t.digits = s.digits ∧ t.results = s.results ∧ t.adct = s.adct ∧ t.adcp = s.adcp ∧
      t.params = s.params

/-- R140, R70, R71, R145: with a clock that always runs and an environment that lets macros go on (a named premise, R243), every
sensor operation completes, whatever compare-matches arrive and whatever ticks are taken between its µops: "no sensor operation
leaves `CS` asserted when it completes", and a frame that is not clean does not trap. -/
def Obligations.SensorOperationsCompleteWhateverArrives : Prop :=
  ∀ (s : State) (i : Instr), BoundariesEnd s → s.hung = false → s.cs = .deasserted → s.sched.clock = none →
    i ∈ [.config, .readpair 0x88#8, .readpair 0x8A#8, .readpair 0x8E#8, .readtriple 0xFA#8, .readtriple 0xFB#8, .loadcal] →
    ∃ t, exec i s = .next t ∧ t.hung = false ∧ t.cs = .deasserted ∧ t.env = [] ∧ t.done = true

/-- R102: a `READPAIR`, `READTRIPLE` or `PUB` whose operand is outside the listed set is refused. -/
def Obligations.BadOperandsAreRefused : Prop :=
  ∀ (i : Instr) (s : State), i.wf = false → exec i s = .refused .badOperand

/-- R313, R66: a tick taken inside an open envelope, whatever bytes it holds, sends its glyph as one more byte of the frame. In
a clean envelope, unless the glyph is `DUMMY`, every later reply is a free byte; if it is, the envelope stays clean, one position
on. In an empty one, right after `CSA`, every reply after the next byte, a command and not `DUMMY`, is a free byte, whatever the
glyph. -/
def Obligations.TickInsideAnEnvelope : Prop :=
  ∀ s : State, s.hung = false → s.sched.nextArrival = false → irqReady s = true → s.cs = .asserted →
    clockGives 8 s = true → s.scan ≠ 9 →
    ∃ t, step s = .next t ∧ t.hung = false ∧ t.cs = .asserted ∧ t.env = s.env ++ [t.dout] ∧
      (∀ c k, s.env = c :: List.replicate k s.params.dummy →
        (t.dout ≠ s.params.dummy → ∀ ds moment, sensorReply t.params (t.env ++ ds) moment = Config.anyByte moment) ∧
        (t.dout = s.params.dummy → t.env = c :: List.replicate (k + 1) s.params.dummy)) ∧
      (s.env = [] → ∀ c ds moment, c ≠ s.params.dummy →
        sensorReply t.params (t.env ++ c :: ds) moment = Config.anyByte moment)

/-! ### Compensation -/

/-- R170 to R176: whatever the registers hold, written or not, inside `Fits32` and `0 <= tfine < 512000`, `COMPT` writes the three digits the formulas give, each at most 9,
and they recombine to `floor(tfine / 512)`; nothing else changes but the model's record of unwritten reads (log entry 12). -/
def Obligations.TemperatureDigitsInDomain : Prop :=
  ∀ s : State,
    let a : Int := (s.adct.value.toNat : Int) / 8 - 2 * s.t1.value.toInt
    let m1 : Int := a * s.t2.value.toInt
    let d : Int := (s.adct.value.toNat : Int) / 16 - s.t1.value.toInt
    let m2 : Int := d * d / 4096 * s.t3.value.toInt
    let tfine : Int := m1 / 2048 + m2 / 16384
    fits32 m1 → fits32 (d * d) → fits32 m2 → fits32 tfine → 0 ≤ tfine → tfine < 512000 →
    let tt : Byte := BitVec.ofInt 8 (tfine / 5120 / 10)
    let to_ : Byte := BitVec.ofInt 8 (tfine / 5120 % 10)
    let th : Byte := BitVec.ofInt 8 (tfine / 512 % 10)
    exec .compt s = .next { s with
      results := { s.results with tTens := tt, tOnes := to_, tTenths := th }, misreads := s.misreads ++ tempMisreads s } ∧
    tt.toNat ≤ 9 ∧ to_.toNat ≤ 9 ∧ th.toNat ≤ 9 ∧
    (tt.toNat : Int) * 100 + to_.toNat * 10 + th.toNat = tfine / 512

/-- R174, R177: outside that domain the three digits are free bytes, drawn at the computation; nothing else changes but the
model's record of unwritten reads (log entry 12), and nothing traps. -/
def Obligations.TemperatureDigitsOutsideDomain : Prop :=
  ∀ s : State,
    let a : Int := (s.adct.value.toNat : Int) / 8 - 2 * s.t1.value.toInt
    let m1 : Int := a * s.t2.value.toInt
    let d : Int := (s.adct.value.toNat : Int) / 16 - s.t1.value.toInt
    let m2 : Int := d * d / 4096 * s.t3.value.toInt
    let tfine : Int := m1 / 2048 + m2 / 16384
    ¬ (fits32 m1 ∧ fits32 (d * d) ∧ fits32 m2 ∧ fits32 tfine ∧ 0 ≤ tfine ∧ tfine < 512000) →
    exec .compt s = .next { s with
      results := { s.results with
        tTens := Config.anyByte s.draws, tOnes := Config.anyByte (s.draws + 1), tTenths := Config.anyByte (s.draws + 2) }
      draws := s.draws + 3
      misreads := s.misreads ++ tempMisreads s }

/-- R180, R181: for `ADCP >= 6552`, which is `p >= 0`, `COMPP` writes the three digits of `p mod 1000`; the ones digit is 0 and
the tens digit 0 or 5; nothing else changes but the model's record of unwritten reads (log entry 12). -/
def Obligations.PressureDigitsInDomain : Prop :=
  ∀ s : State, 6552 ≤ s.adcp.value.toNat →
    let p : Nat := (s.adcp.value.toNat / 4 - 1638) * 50
    let ph : Byte := BitVec.ofNat 8 (p / 100 % 10)
    let pt : Byte := BitVec.ofNat 8 (p / 10 % 10)
    let po : Byte := BitVec.ofNat 8 (p % 10)
    exec .compp s = .next { s with
      results := { s.results with pHundreds := ph, pTens := pt, pOnes := po }
      misreads := s.misreads ++ pressureMisreads s } ∧
    ph.toNat * 100 + pt.toNat * 10 + po.toNat = p % 1000 ∧ ph.toNat ≤ 9 ∧ (pt.toNat = 0 ∨ pt.toNat = 5) ∧ po.toNat = 0

/-- R182: for `ADCP < 6552` the three digits are free bytes; nothing else changes but the model's record of unwritten
reads (log entry 12). -/
def Obligations.PressureDigitsOutsideDomain : Prop :=
  ∀ s : State, s.adcp.value.toNat < 6552 →
    exec .compp s = .next { s with
      results := { s.results with
        pHundreds := Config.anyByte s.draws, pTens := Config.anyByte (s.draws + 1), pOnes := Config.anyByte (s.draws + 2) }
      draws := s.draws + 3
      misreads := s.misreads ++ pressureMisreads s }

/-- R303, U14, R22, R23: a compensation that reads registers nothing has written runs on the values they hold since reset, and
each such read is recorded; one whose registers are written records nothing. R303 asks for a fault instead: that the model goes on
and records is its choice (log entry 12). -/
def Obligations.UnwrittenReadsAreRecorded : Prop :=
  ∀ s : State,
    (∃ t, exec .compt s = .next t ∧ t.misreads = s.misreads ++
      ((if s.adct.written then [] else [.adct]) ++ (if s.t1.written then [] else [.t1]) ++
        (if s.t2.written then [] else [.t2]) ++ (if s.t3.written then [] else [.t3]))) ∧
    (∃ t, exec .compp s = .next t ∧ t.misreads = s.misreads ++ if s.adcp.written then [] else [.adcp])

/-- R163, R183: `P1`, `P2`, `P3` are never consumed: two states that differ in them only step to two states that differ in them
only, or stop alike. -/
def Obligations.PressureCoefficientsNeverConsumed : Prop :=
  ∀ (s : State) (x y z : Datum 16),
    Matched (fun a b => b = { a with p1 := b.p1, p2 := b.p2, p3 := b.p3 }) (step s)
      (step { s with p1 := x, p2 := y, p3 := z })

/-! ### Display scanner -/

/-- R204, R94, R109: `SHOW g` and the glyph frame's row perform the whole frame and end with `DOUT = DSR = g` and `LATCH`
asserted; nothing else changes but `XFER`'s own state. If the `XFER` hangs, `LATCH` is left deasserted and `DOUT` at the previous
glyph. -/
def Obligations.GlyphFrames : Prop :=
  ∀ (g : Byte) (s : State), s.hung = false →
    (clockGives 8 s = true →
      exec (.showg g) s = .next (glyphFrameEnd g s) ∧ exec (.wireGlyph g) s = .next (glyphFrameEnd g s)) ∧
    (clockGives 8 s = false →
      ∃ t, exec (.showg g) s = .next t ∧ exec (.wireGlyph g) s = .next t ∧ t.hung = true ∧ t.latch = .deasserted ∧
        t.dout = s.dout ∧ t.ie = false ∧ t.scan = s.scan ∧ t.cs = s.cs ∧ t.env = s.env ∧
        t.hist = s.hist ++ [.latch .deasserted])

/-- R213 to R222, R109: each scan state's row, run whatever `SCAN` held (the model's choice, log entry 10), shows its glyph and
moves to the next state; nothing else changes. State 9 sends nothing. -/
def Obligations.ScanStateActions : Prop :=
  ∀ s : State, s.hung = false →
    (clockGives 8 s = true →
      (∀ h : s.digits.tTens.toNat < 12, exec .scan0 s =
        .next { glyphFrameEnd s.params.glyph[s.digits.tTens.toNat] s with scan := 1 }) ∧
      (∀ h : s.digits.tOnes.toNat < 12, exec .scan1 s =
        .next { glyphFrameEnd s.params.glyph[s.digits.tOnes.toNat] s with scan := 2 }) ∧
      exec .scan2 s = .next { glyphFrameEnd s.params.glyphDp s with scan := 3 } ∧
      (∀ h : s.digits.tTenths.toNat < 12, exec .scan3 s =
        .next { glyphFrameEnd s.params.glyph[s.digits.tTenths.toNat] s with scan := 4 }) ∧
      exec .scan4 s = .next { glyphFrameEnd s.params.glyph[11] s with scan := 5 } ∧
      (∀ h : s.digits.pHundreds.toNat < 12, exec .scan5 s =
        .next { glyphFrameEnd s.params.glyph[s.digits.pHundreds.toNat] s with scan := 6 }) ∧
      (∀ h : s.digits.pTens.toNat < 12, exec .scan6 s =
        .next { glyphFrameEnd s.params.glyph[s.digits.pTens.toNat] s with scan := 7 }) ∧
      (∀ h : s.digits.pOnes.toNat < 12, exec .scan7 s =
        .next { glyphFrameEnd s.params.glyph[s.digits.pOnes.toNat] s with scan := 8 }) ∧
      exec .scan8 s = .next { glyphFrameEnd s.params.glyph[10] s with scan := 9 }) ∧
    exec .scan9 s = .next { s with scan := 0 }

/-- R72, R105, R206: a digit value above 11 does not trap: the tick that shows it sends a free byte. -/
def Obligations.DigitsAboveTheTableShowAFreeGlyph : Prop :=
  ∀ s : State, s.hung = false → clockGives 8 s = true →
    let free := glyphFrameEnd (Config.anyByte s.draws) { s with draws := s.draws + 1 }
    (12 ≤ s.digits.tTens.toNat → exec .scan0 s = .next { free with scan := 1 }) ∧
    (12 ≤ s.digits.tOnes.toNat → exec .scan1 s = .next { free with scan := 2 }) ∧
    (12 ≤ s.digits.tTenths.toNat → exec .scan3 s = .next { free with scan := 4 }) ∧
    (12 ≤ s.digits.pHundreds.toNat → exec .scan5 s = .next { free with scan := 6 }) ∧
    (12 ≤ s.digits.pTens.toNat → exec .scan6 s = .next { free with scan := 7 }) ∧
    (12 ≤ s.digits.pOnes.toNat → exec .scan7 s = .next { free with scan := 8 })

/-- R206, R208: `TICK` is the row of the scan state found on entry (the rows as operations: log entry 10). -/
def Obligations.TickDispatchesOnScan : Prop :=
  ∀ s : State,
    (s.scan = 0 → exec .tick s = exec .scan0 s) ∧ (s.scan = 1 → exec .tick s = exec .scan1 s) ∧
    (s.scan = 2 → exec .tick s = exec .scan2 s) ∧ (s.scan = 3 → exec .tick s = exec .scan3 s) ∧
    (s.scan = 4 → exec .tick s = exec .scan4 s) ∧ (s.scan = 5 → exec .tick s = exec .scan5 s) ∧
    (s.scan = 6 → exec .tick s = exec .scan6 s) ∧ (s.scan = 7 → exec .tick s = exec .scan7 s) ∧
    (s.scan = 8 → exec .tick s = exec .scan8 s) ∧ (s.scan = 9 → exec .tick s = exec .scan9 s)

/-- R213 to R222: the tick in each scan state shows that state's glyph and moves to the next state, and nothing else changes; in
state 9 it sends nothing. -/
def Obligations.TickShowsTheGlyphOfItsState : Prop :=
  ∀ s : State, s.hung = false →
    (clockGives 8 s = true →
      (s.scan = 0 → ∀ h : s.digits.tTens.toNat < 12, exec .tick s =
        .next { glyphFrameEnd s.params.glyph[s.digits.tTens.toNat] s with scan := 1 }) ∧
      (s.scan = 1 → ∀ h : s.digits.tOnes.toNat < 12, exec .tick s =
        .next { glyphFrameEnd s.params.glyph[s.digits.tOnes.toNat] s with scan := 2 }) ∧
      (s.scan = 2 → exec .tick s = .next { glyphFrameEnd s.params.glyphDp s with scan := 3 }) ∧
      (s.scan = 3 → ∀ h : s.digits.tTenths.toNat < 12, exec .tick s =
        .next { glyphFrameEnd s.params.glyph[s.digits.tTenths.toNat] s with scan := 4 }) ∧
      (s.scan = 4 → exec .tick s = .next { glyphFrameEnd s.params.glyph[11] s with scan := 5 }) ∧
      (s.scan = 5 → ∀ h : s.digits.pHundreds.toNat < 12, exec .tick s =
        .next { glyphFrameEnd s.params.glyph[s.digits.pHundreds.toNat] s with scan := 6 }) ∧
      (s.scan = 6 → ∀ h : s.digits.pTens.toNat < 12, exec .tick s =
        .next { glyphFrameEnd s.params.glyph[s.digits.pTens.toNat] s with scan := 7 }) ∧
      (s.scan = 7 → ∀ h : s.digits.pOnes.toNat < 12, exec .tick s =
        .next { glyphFrameEnd s.params.glyph[s.digits.pOnes.toNat] s with scan := 8 }) ∧
      (s.scan = 8 → exec .tick s = .next { glyphFrameEnd s.params.glyph[10] s with scan := 9 })) ∧
    (s.scan = 9 → exec .tick s = .next { s with scan := 0 })

/-- R208, R212: a `TICK` whose clock runs advances `SCAN` by one, wrapping 9 to 0, and changes no digit, coefficient, sample or
private result, nor `CS`, `IE`, `MSEQ`, `CTX`, `TICK_PEND`, `TRUN` or `CMP`; if its `SHOW` hangs, `SCAN` is not advanced. -/
def Obligations.TickAdvancesScan : Prop :=
  ∀ s : State, s.hung = false →
    (clockGives 8 s = true → ∃ t, exec .tick s = .next t ∧ t.hung = false ∧ t.scan.val = (s.scan.val + 1) % 10 ∧
      t.digits = s.digits ∧ t.results = s.results ∧ t.t1 = s.t1 ∧ t.t2 = s.t2 ∧ t.t3 = s.t3 ∧ t.p1 = s.p1 ∧ t.p2 = s.p2 ∧
      t.p3 = s.p3 ∧ t.adct = s.adct ∧ t.adcp = s.adcp ∧ t.replies = s.replies ∧ t.cs = s.cs ∧ t.ie = s.ie ∧
      t.mseq = s.mseq ∧ t.ctx = s.ctx ∧ t.tickPend = s.tickPend ∧ t.trun = s.trun ∧ t.cmp = s.cmp) ∧
    (clockGives 8 s = false → s.scan ≠ 9 → ∃ t, exec .tick s = .next t ∧ t.hung = true ∧ t.scan = s.scan ∧
      t.latch = .deasserted ∧ t.dout = s.dout)

/-- R207, R208, R211: ten firings are one period: `SCAN` is where it was, and from state 0 the display has been sent
temperature tens, ones, point, tenths, "C", pressure hundreds, tens, ones, "P", in that order. -/
def Obligations.TenFiringsAreOnePeriod : Prop :=
  ∀ s : State, s.hung = false → clockGives 72 s = true →
    (runIsr^[10] s).hung = false ∧ (runIsr^[10] s).scan = s.scan ∧
    (s.scan = 0 →
      ∀ (h0 : s.digits.tTens.toNat < 12) (h1 : s.digits.tOnes.toNat < 12) (h3 : s.digits.tTenths.toNat < 12)
        (h5 : s.digits.pHundreds.toNat < 12) (h6 : s.digits.pTens.toNat < 12) (h7 : s.digits.pOnes.toNat < 12),
      commits (runIsr^[10] s).hist = commits s.hist ++
        [s.params.glyph[s.digits.tTens.toNat], s.params.glyph[s.digits.tOnes.toNat], s.params.glyphDp,
         s.params.glyph[s.digits.tTenths.toNat], s.params.glyph[11], s.params.glyph[s.digits.pHundreds.toNat],
         s.params.glyph[s.digits.pTens.toNat], s.params.glyph[s.digits.pOnes.toNat], s.params.glyph[10]])

/-! ### Interrupt, timer, contexts -/

/-- R264, R282: a compare-match event sets `TICK_PEND` while `TRUN = 1` and is absorbed by a set one; while `TRUN = 0` it does
nothing; it changes nothing else. -/
def Obligations.CompareMatchSetsPending : Prop :=
  ∀ s : State, s.sched.nextArrival = true →
    (s.trun = true → step s = .next { s with tickPend := true, sched := s.sched.afterArrival }) ∧
    (s.trun = false → step s = .next { s with sched := s.sched.afterArrival })

/-- R268, R272, R269: entry writes `TICK_PEND`, `IE_SAVE_I`, `IE`, `MSEQ_SAVE`, `CTX` and `HIST`: "Nothing else changes"; return
restores `IE` and `MSEQ` and writes `CTX` and `HIST`, nothing else; a run of the handler is entry, one `TICK`, return, and "if the
`XFER` inside `TICK` hangs there is no return". -/
def Obligations.InterruptEntryAndReturn : Prop :=
  ∀ s : State,
    irqEnter s = { s with
      tickPend := false, ieSaveI := s.ie, ie := false, mseqSave := s.mseq, ctx := .isr, hist := s.hist ++ [.irqEnter] } ∧
    irqReturn s = { s with
      ie := s.ieSaveI, mseq := s.mseqSave, ctx := .main, hist := s.hist ++ [.irqReturn] } ∧
    ∃ t, exec .tick (irqEnter s) = .next t ∧ (t.hung = false → runIsr s = irqReturn t) ∧ (t.hung = true → runIsr s = t)

/-- R267, R241, R266, R269, R212: with the interrupt ready the next move of the block is exactly one run of `ISR`, before
`MAIN`'s µop and before any placed operation: it returns with `IE = 1`, `CTX = MAIN` and `MSEQ` as they were, `TICK_PEND = 0`,
`SCAN` advanced by one, and its events between `irq_enter` and `irq_return`; no digit, private result or reply, coefficient or
sample changes, nor `CS`, `TRUN` or `CMP`. -/
def Obligations.ReadyInterruptIsTaken : Prop :=
  ∀ s : State, s.hung = false → s.sched.nextArrival = false → s.ctx = .main → s.ie = true → s.tickPend = true →
    clockGives 8 s = true →
    let t := runIsr { s with sched := s.sched.afterArrival }
    step s = .next t ∧ ∃ evs, t.hung = false ∧ t.ctx = .main ∧ t.ie = true ∧ t.tickPend = false ∧ t.mseq = s.mseq ∧
      t.scan.val = (s.scan.val + 1) % 10 ∧ t.hist = s.hist ++ [.irqEnter] ++ evs ++ [.irqReturn] ∧
      t.program = s.program ∧ t.params = s.params ∧ t.digits = s.digits ∧ t.results = s.results ∧ t.replies = s.replies ∧
      t.t1 = s.t1 ∧ t.t2 = s.t2 ∧ t.t3 = s.t3 ∧ t.p1 = s.p1 ∧ t.p2 = s.p2 ∧ t.p3 = s.p3 ∧ t.adct = s.adct ∧
      t.adcp = s.adcp ∧ t.cs = s.cs ∧ t.trun = s.trun ∧ t.cmp = s.cmp ∧
      (s.scan = 9 → evs = [] ∧ t.latch = s.latch ∧ t.dout = s.dout ∧ t.dsr = s.dsr ∧ t.env = s.env) ∧
      (s.scan ≠ 9 → ∃ g x, evs = [.latch .deasserted, .xfer g x, .latch .asserted, .commit g] ∧ t.dout = g)

/-- R274: `TCFG` with parameters that meet its two requirements stores the count less one and starts the timer, nothing else;
parameters that fail either are refused. -/
def Obligations.TimerConfiguration : Prop :=
  ∀ s : State,
    (0 < s.params.scanHz → 1 ≤ s.params.timerClkHz / s.params.scanHz →
      s.params.timerClkHz / s.params.scanHz ≤ 2 ^ s.params.cmpW →
      exec .tcfg s = .next { s with cmp := s.params.timerClkHz / s.params.scanHz - 1, trun := true }) ∧
    (s.params.scanHz = 0 → exec .tcfg s = .refused .scanHzZero) ∧
    (0 < s.params.scanHz → s.params.timerClkHz / s.params.scanHz = 0 ∨
      2 ^ s.params.cmpW < s.params.timerClkHz / s.params.scanHz → exec .tcfg s = .refused .countOutOfRange)

/-- R275: `ARM` sets `IE`, nothing else, and a pending tick is taken at once. -/
def Obligations.ArmEnablesTheInterrupt : Prop :=
  ∀ s : State, exec .arm s = .next { s with ie := true } ∧
    (s.ctx = .main → s.tickPend = true → irqReady { s with ie := true } = true)

/-- R8, R238: the parameters are fixed for a model instance: no step changes them. -/
def Obligations.ParametersAreFixed : Prop :=
  ∀ s t : State, step s = .next t → t.params = s.params

/-- R277, R209, R35: `MAIN`'s own sequence never writes `SCAN`, `LATCH` or `DOUT`, and writes a digit only by `PUB`. -/
def Obligations.MainNeverTouchesTheScanner : Prop :=
  ∀ s t : State, mainUop s = .next t → t.scan = s.scan ∧ t.latch = s.latch ∧ t.dout = s.dout ∧
    (t.digits ≠ s.digits → ∃ k, mseqUop s.params s.mseq = .pub k)

/-! ### Main line -/

/-- R237: `PUB k` copies one private result to its shared digit and records it; nothing else changes. -/
def Obligations.PublishOneDigit : Prop :=
  ∀ s : State,
    exec (.pub 0#8) s = .next { s with
      digits := { s.digits with tTens := s.results.tTens }, hist := s.hist ++ [.pub .tTens s.results.tTens] } ∧
    exec (.pub 1#8) s = .next { s with
      digits := { s.digits with tOnes := s.results.tOnes }, hist := s.hist ++ [.pub .tOnes s.results.tOnes] } ∧
    exec (.pub 2#8) s = .next { s with
      digits := { s.digits with tTenths := s.results.tTenths }, hist := s.hist ++ [.pub .tTenths s.results.tTenths] } ∧
    exec (.pub 3#8) s = .next { s with
      digits := { s.digits with pHundreds := s.results.pHundreds }
      hist := s.hist ++ [.pub .pHundreds s.results.pHundreds] } ∧
    exec (.pub 4#8) s = .next { s with
      digits := { s.digits with pTens := s.results.pTens }, hist := s.hist ++ [.pub .pTens s.results.pTens] } ∧
    exec (.pub 5#8) s = .next { s with
      digits := { s.digits with pOnes := s.results.pOnes }, hist := s.hist ++ [.pub .pOnes s.results.pOnes] }

/-- R239: `IDLE` changes no state. -/
def Obligations.IdleChangesNothing : Prop :=
  ∀ s : State, exec .idle s = .next s

/-- R312, R210: after some of the publications, in any order, each digit is the new value if it is among those published and
the old one otherwise, and a tick in state 0 shows the temperature tens that stands there. -/
def Obligations.TornUpdateShowsOldAndNew : Prop :=
  ∀ (s t : State) (ks : List Digit), s.hung = false → Undisturbed s → runUops (ks.map .pub) s = .next t →
    (∀ d, t.digits.get d = if d ∈ ks then s.results.get d else s.digits.get d) ∧
    (t.scan = 0 → clockGives 8 t = true → ∀ h : (t.digits.get .tTens).toNat < 12,
      (runIsr t).dout = t.params.glyph[(t.digits.get .tTens).toNat])

/-- R230, R232, R233, R238: the µops at the positions of `MSEQ`: 23 of the boot phase and 24 of a polling cycle, whose
publications are in `PUBLISH_ORDER`, and `IDLE`. -/
def Obligations.FixedSequenceMicroOperations : Prop :=
  ∀ p : Params, let d := Instr.xfer p.dummy
    (List.finRange 23).map (fun i => uopInstr (mseqUop p (.boot i))) =
      [.csa, .xfer 0x88#8, d, d, d, d, .csd, .csa, .xfer 0x8A#8, d, d, d, d, .csd, .csa, .xfer 0x8E#8, d, d, d, d, .csd,
       .tcfg, .arm] ∧
    (List.finRange 24).map (fun i => uopInstr (mseqUop p (.poll i))) =
      [.csa, .xfer 0x74#8, .xfer 0x43#8, .csd, .csa, .xfer 0xFA#8, d, d, d, .csd, .csa, .xfer 0xFB#8, d, d, d, .csd,
       .compt, .compp] ++ p.publishOrder.toList.map (fun k => .pub (selectorByte k)) ∧
    uopInstr (mseqUop p .idle) = .idle

/-- R240, R239: the successor of each position; a hung transfer keeps it; after `POLL23` and `IDLE` the environment chooses,
and nothing makes it choose `POLL0` (R243). -/
def Obligations.SequenceSuccessor : Prop :=
  ∀ s t : State, mainUop s = .next t →
    (t.hung = true → t.mseq = s.mseq) ∧
    (t.hung = false →
      (∀ i : Fin 23, s.mseq = .boot i → (∀ h : i.val < 22, t.mseq = .boot ⟨i.val + 1, by omega⟩) ∧
        (i.val = 22 → t.mseq = .poll 0)) ∧
      (∀ i : Fin 24, s.mseq = .poll i → (∀ h : i.val < 23, t.mseq = .poll ⟨i.val + 1, by omega⟩) ∧
        (i.val = 23 → t.mseq = if s.sched.nextIdle then .idle else .poll 0)) ∧
      (s.mseq = .idle → t.mseq = if s.sched.nextIdle then .idle else .poll 0))

/-- R232, R160, R274, R275: `BOOT` with `IE = 0` loads the coefficients, configures the timer and arms, whatever compare-matches
arrive: none is taken before its end. That the environment lets it go on is a named premise (R243). The clause `t.mseq = s.mseq`
is the model's choice (log entry 6: a placed operation does not advance `MSEQ`) and not R232's or R240's, whose boot phase ends
at `POLL0`: that is BootIsTwentyThreeSteps. -/
def Obligations.BootLoadsConfiguresAndArms : Prop :=
  ∀ s : State, BoundariesEnd s → s.hung = false → s.ie = false → s.cs = .deasserted → clockGives 120 s = true →
    s.params.timerOk →
    let r := fun (frame : Nat) (c : Byte) (k : Nat) => Config.sensorReg (s.draws + 5 * frame + 1 + k) c k
    ∃ t, exec .boot s = .next t ∧
      t.t1 = ⟨word16 (r 0 0x88#8 0) (r 0 0x88#8 1), true⟩ ∧ t.t2 = ⟨word16 (r 0 0x88#8 2) (r 0 0x88#8 3), true⟩ ∧
      t.t3 = ⟨word16 (r 1 0x8A#8 0) (r 1 0x8A#8 1), true⟩ ∧ t.p1 = ⟨word16 (r 1 0x8A#8 2) (r 1 0x8A#8 3), true⟩ ∧
      t.p2 = ⟨word16 (r 2 0x8E#8 0) (r 2 0x8E#8 1), true⟩ ∧ t.p3 = ⟨word16 (r 2 0x8E#8 2) (r 2 0x8E#8 3), true⟩ ∧
      t.cmp = s.params.timerCount - 1 ∧ t.trun = true ∧ t.ie = true ∧ t.hung = false ∧
      t.hist = s.hist ++ pairTrace s.params 0x88#8 s.draws ++ pairTrace s.params 0x8A#8 (s.draws + 5) ++
        pairTrace s.params 0x8E#8 (s.draws + 10) ∧
      t.cs = .deasserted ∧ t.env = [] ∧ t.latch = s.latch ∧ t.dout = s.dout ∧ t.scan = s.scan ∧ t.ctx = s.ctx ∧
      t.mseq = s.mseq ∧ t.digits = s.digits ∧ t.results = s.results ∧ t.adct = s.adct ∧ t.adcp = s.adcp

/-- R233, R234, R238: `POLL` with no tick in it: the sensor is configured, both samples are read, both computations made, and all
six digits published, in that order. The clause `t.mseq = s.mseq` is the model's choice (log entry 6: a placed operation does not
advance `MSEQ`) and not R233's or R240's, whose cycle ends at `IDLE` or `POLL0`: that is PollIsOneCycleOfSteps. -/
def Obligations.PollRefreshesTheDigits : Prop :=
  ∀ s : State, s.hung = false → Undisturbed s → s.cs = .deasserted → clockGives 80 s = true → s.params.publishesEach →
    let r := fun (first : Nat) (c : Byte) (k : Nat) => Config.sensorReg (s.draws + first + k) c k
    ∃ t evs, exec .poll s = .next t ∧
      t.adct = ⟨sample20 (r 3 0xFA#8 0) (r 3 0xFA#8 1) (r 3 0xFA#8 2), true⟩ ∧
      t.adcp = ⟨sample20 (r 7 0xFB#8 0) (r 7 0xFB#8 1) (r 7 0xFB#8 2), true⟩ ∧
      t.digits = t.results ∧
      (tempInDomain t.adct.value s.t1.value s.t2.value s.t3.value →
        (t.results.tTens, t.results.tOnes, t.results.tTenths) =
          tempDigits (tempFine t.adct.value s.t1.value s.t2.value s.t3.value)) ∧
      (6552 ≤ t.adcp.value.toNat →
        (t.results.pHundreds, t.results.pTens, t.results.pOnes) = pressureDigits (pressure t.adcp.value)) ∧
      t.hist = s.hist ++ configTrace s.draws ++ tripleTrace s.params 0xFA#8 (s.draws + 2) ++
        tripleTrace s.params 0xFB#8 (s.draws + 6) ++ evs ∧
      evs = s.params.publishOrder.toList.map (fun k => .pub k (t.results.get k)) ∧
      t.hung = false ∧ t.cs = .deasserted ∧ t.env = [] ∧ t.ie = s.ie ∧ t.latch = s.latch ∧ t.dout = s.dout ∧
      (s.t1.written = true → s.t2.written = true → s.t3.written = true → t.misreads = s.misreads) ∧
      t.scan = s.scan ∧ t.mseq = s.mseq ∧ t.ctx = s.ctx ∧ t.trun = s.trun ∧ t.cmp = s.cmp ∧ t.t1 = s.t1 ∧ t.t2 = s.t2 ∧
      t.t3 = s.t3 ∧ t.p1 = s.p1 ∧ t.p2 = s.p2 ∧ t.p3 = s.p3

/-- R232, R240, R241: `BOOT` is what 23 steps of the fixed sequence from `BOOT0` do when no compare-match arrives. -/
def Obligations.BootIsTwentyThreeSteps : Prop :=
  ∀ s : State, s.hung = false → Undisturbed s → s.program.bytes = [] → s.ctx = .main → s.mseq = .boot 0 →
    s.ie = false → s.cs = .deasserted → clockGives 120 s = true → s.params.timerOk →
    ∃ t, exec .boot s = .next t ∧ Sys2Proof.core.run 23 s = .next { t with mseq := .poll 0 }

/-- R233, R239, R240, R241: `POLL` is what 24 steps of the fixed sequence from `POLL0`, and the idling steps the environment
asks for, do when no tick is taken; they end at `POLL0`, under the named premise that the idling ends (R243). -/
def Obligations.PollIsOneCycleOfSteps : Prop :=
  ∀ s : State, s.hung = false → Undisturbed s → IdlingEnds s → s.program.bytes = [] → s.ctx = .main → s.mseq = .poll 0 →
    s.cs = .deasserted → clockGives 80 s = true →
    ∃ t, exec .poll s = .next t ∧
      Sys2Proof.core.run (24 + idleCount s.sched.idles) s = .next { t with mseq := .poll 0 }

/-- R162, R22: after the boot phase the fixed sequence and the handler never write a coefficient again. -/
def Obligations.CoefficientsImmutableAfterBoot : Prop :=
  ∀ s t : State, SequenceInv s → bootPlace s.mseq = 23 → step s = .next t →
    t.t1 = s.t1 ∧ t.t2 = s.t2 ∧ t.t3 = s.t3 ∧ t.p1 = s.p1 ∧ t.p2 = s.p2 ∧ t.p3 = s.p3

/-! ### Steps and invariants -/

/-- R101, R102: when the placed bytes decode, the block's next move is that operation, and the step moves past its bytes. Placing
operations from outside is the model's choice (log entry 6). -/
def Obligations.StepRunsThePlacedOperation : Prop :=
  ∀ (s : State) (i : Instr) (rest : List Byte), s.hung = false → irqReady s = false →
    decode s.program.space s.program.bytes = .ok i rest →
    s.sched.nextArrival = false →
    step s = exec i { s with program := { s.program with bytes := rest }, sched := s.sched.afterArrival }

/-- R102: placed bytes that spell no operation are refused (placing: log entry 6). -/
def Obligations.StepRefusesUndecodableBytes : Prop :=
  ∀ (s : State) (e : DecodeError), s.hung = false → irqReady s = false → s.sched.nextArrival = false →
    s.program.bytes ≠ [] → decode s.program.space s.program.bytes = .reject e → step s = .refused (.undecodable e)

/-- R241 (1), R230: with nothing placed and no tick to take, a step of `MAIN` is the operation of the µop at `MSEQ`, then the
capture of its result and the advance of `MSEQ`. -/
def Obligations.StepRunsTheSequence : Prop :=
  ∀ s : State, s.hung = false → irqReady s = false → s.sched.nextArrival = false → s.program.bytes = [] → s.ctx = .main →
    step s = andThen (exec (uopInstr (mseqUop s.params s.mseq)) { s with sched := s.sched.afterArrival })
      (fun t => .next (advanceMseq (capture (mseqUop s.params s.mseq) t)))

/-- R30, R45, R270, R311, R38, R37: the block's invariant is kept by every step, whatever operations are placed. -/
def Obligations.BlockInvariantKept : Prop :=
  ∀ s t : State, BlockInv s → step s = .next t → BlockInv t

/-- R47: the block's invariant holds after reset, for every parameter choice and every environment, if the unspecified `CMP`
fits its width. -/
def Obligations.BlockInvariantAtReset : Prop :=
  ∀ (p : Params) (v : PowerOn) (e : Schedule), v.cmp < 2 ^ p.cmpW → BlockInv (State.resetWith p v e)

/-- R235, R260, R305, R303, R140: from every state in order, every step of the fixed sequence goes on, no fault and no refusal,
to a state in order, whatever the environment does; and no compensation reads an unwritten register. -/
def Obligations.FixedSequenceNeverStops : Prop :=
  ∀ s : State, SequenceInv s → ∃ t, step s = .next t ∧ SequenceInv t

/-- R301: the fixed sequence's invariant holds after reset, for every environment and every parameter choice that meets R274. -/
def Obligations.FixedSequenceStartsInOrder : Prop :=
  ∀ (p : Params) (v : PowerOn) (e : Schedule), p.timerOk → SequenceInv (State.resetWith p v e)
end

