-- ==== Sys2Proof/Laws/State.lean ====
section
/-! SUPPORT. The field lemmas of every named update of State: for each, what it writes (`_writes`) and what it leaves
(`_frame`), true by `rfl`. `simp` reads a conjunction as one rule for each part. -/

namespace Sys2Proof.Machine

open Sys2Proof

@[simp] theorem suspendIrq_writes (s : State) :
    (suspendIrq s).ie = false ∧ (suspendIrq s).ieSaveX = s.ie := by
  repeat' constructor

@[simp] theorem suspendIrq_frame (s : State) :
    (suspendIrq s).params = s.params ∧ (suspendIrq s).sched = s.sched ∧ (suspendIrq s).draws = s.draws ∧
    (suspendIrq s).sr = s.sr ∧ (suspendIrq s).cnt = s.cnt ∧ (suspendIrq s).done = s.done ∧ (suspendIrq s).t1 = s.t1 ∧
    (suspendIrq s).t2 = s.t2 ∧ (suspendIrq s).t3 = s.t3 ∧ (suspendIrq s).p1 = s.p1 ∧ (suspendIrq s).p2 = s.p2 ∧
    (suspendIrq s).p3 = s.p3 ∧ (suspendIrq s).adct = s.adct ∧ (suspendIrq s).adcp = s.adcp ∧
    (suspendIrq s).digits = s.digits ∧ (suspendIrq s).results = s.results ∧ (suspendIrq s).replies = s.replies ∧
    (suspendIrq s).mseq = s.mseq ∧ (suspendIrq s).scan = s.scan ∧ (suspendIrq s).ctx = s.ctx ∧
    (suspendIrq s).tickPend = s.tickPend ∧ (suspendIrq s).trun = s.trun ∧ (suspendIrq s).cmp = s.cmp ∧
    (suspendIrq s).cs = s.cs ∧ (suspendIrq s).latch = s.latch ∧ (suspendIrq s).ieSaveI = s.ieSaveI ∧
    (suspendIrq s).mseqSave = s.mseqSave ∧ (suspendIrq s).dsr = s.dsr ∧ (suspendIrq s).dout = s.dout ∧
    (suspendIrq s).env = s.env ∧ (suspendIrq s).hist = s.hist ∧ (suspendIrq s).hung = s.hung ∧
    (suspendIrq s).program = s.program ∧ (suspendIrq s).misreads = s.misreads := by
  repeat' constructor

@[simp] theorem restoreIrq_writes (s : State) :
    (restoreIrq s).ie = s.ieSaveX := by
  repeat' constructor

@[simp] theorem restoreIrq_frame (s : State) :
    (restoreIrq s).params = s.params ∧ (restoreIrq s).sched = s.sched ∧ (restoreIrq s).draws = s.draws ∧
    (restoreIrq s).sr = s.sr ∧ (restoreIrq s).cnt = s.cnt ∧ (restoreIrq s).done = s.done ∧ (restoreIrq s).t1 = s.t1 ∧
    (restoreIrq s).t2 = s.t2 ∧ (restoreIrq s).t3 = s.t3 ∧ (restoreIrq s).p1 = s.p1 ∧ (restoreIrq s).p2 = s.p2 ∧
    (restoreIrq s).p3 = s.p3 ∧ (restoreIrq s).adct = s.adct ∧ (restoreIrq s).adcp = s.adcp ∧
    (restoreIrq s).digits = s.digits ∧ (restoreIrq s).results = s.results ∧ (restoreIrq s).replies = s.replies ∧
    (restoreIrq s).mseq = s.mseq ∧ (restoreIrq s).scan = s.scan ∧ (restoreIrq s).ctx = s.ctx ∧
    (restoreIrq s).tickPend = s.tickPend ∧ (restoreIrq s).trun = s.trun ∧ (restoreIrq s).cmp = s.cmp ∧
    (restoreIrq s).cs = s.cs ∧ (restoreIrq s).latch = s.latch ∧ (restoreIrq s).ieSaveX = s.ieSaveX ∧
    (restoreIrq s).ieSaveI = s.ieSaveI ∧ (restoreIrq s).mseqSave = s.mseqSave ∧ (restoreIrq s).dsr = s.dsr ∧
    (restoreIrq s).dout = s.dout ∧ (restoreIrq s).env = s.env ∧ (restoreIrq s).hist = s.hist ∧
    (restoreIrq s).hung = s.hung ∧ (restoreIrq s).program = s.program ∧ (restoreIrq s).misreads = s.misreads := by
  repeat' constructor

@[simp] theorem enableIrq_writes (s : State) :
    (enableIrq s).ie = true := by
  repeat' constructor

@[simp] theorem enableIrq_frame (s : State) :
    (enableIrq s).params = s.params ∧ (enableIrq s).sched = s.sched ∧ (enableIrq s).draws = s.draws ∧
    (enableIrq s).sr = s.sr ∧ (enableIrq s).cnt = s.cnt ∧ (enableIrq s).done = s.done ∧ (enableIrq s).t1 = s.t1 ∧
    (enableIrq s).t2 = s.t2 ∧ (enableIrq s).t3 = s.t3 ∧ (enableIrq s).p1 = s.p1 ∧ (enableIrq s).p2 = s.p2 ∧
    (enableIrq s).p3 = s.p3 ∧ (enableIrq s).adct = s.adct ∧ (enableIrq s).adcp = s.adcp ∧
    (enableIrq s).digits = s.digits ∧ (enableIrq s).results = s.results ∧ (enableIrq s).replies = s.replies ∧
    (enableIrq s).mseq = s.mseq ∧ (enableIrq s).scan = s.scan ∧ (enableIrq s).ctx = s.ctx ∧
    (enableIrq s).tickPend = s.tickPend ∧ (enableIrq s).trun = s.trun ∧ (enableIrq s).cmp = s.cmp ∧
    (enableIrq s).cs = s.cs ∧ (enableIrq s).latch = s.latch ∧ (enableIrq s).ieSaveX = s.ieSaveX ∧
    (enableIrq s).ieSaveI = s.ieSaveI ∧ (enableIrq s).mseqSave = s.mseqSave ∧ (enableIrq s).dsr = s.dsr ∧
    (enableIrq s).dout = s.dout ∧ (enableIrq s).env = s.env ∧ (enableIrq s).hist = s.hist ∧
    (enableIrq s).hung = s.hung ∧ (enableIrq s).program = s.program ∧ (enableIrq s).misreads = s.misreads := by
  repeat' constructor

@[simp] theorem loadShift_writes (b : Byte) (s : State) :
    (loadShift b s).sr = b ∧ (loadShift b s).cnt = 0 ∧ (loadShift b s).done = false := by
  repeat' constructor

@[simp] theorem loadShift_frame (b : Byte) (s : State) :
    (loadShift b s).params = s.params ∧ (loadShift b s).sched = s.sched ∧ (loadShift b s).draws = s.draws ∧
    (loadShift b s).t1 = s.t1 ∧ (loadShift b s).t2 = s.t2 ∧ (loadShift b s).t3 = s.t3 ∧ (loadShift b s).p1 = s.p1 ∧
    (loadShift b s).p2 = s.p2 ∧ (loadShift b s).p3 = s.p3 ∧ (loadShift b s).adct = s.adct ∧
    (loadShift b s).adcp = s.adcp ∧ (loadShift b s).digits = s.digits ∧ (loadShift b s).results = s.results ∧
    (loadShift b s).replies = s.replies ∧ (loadShift b s).mseq = s.mseq ∧ (loadShift b s).scan = s.scan ∧
    (loadShift b s).ctx = s.ctx ∧ (loadShift b s).ie = s.ie ∧ (loadShift b s).tickPend = s.tickPend ∧
    (loadShift b s).trun = s.trun ∧ (loadShift b s).cmp = s.cmp ∧ (loadShift b s).cs = s.cs ∧
    (loadShift b s).latch = s.latch ∧ (loadShift b s).ieSaveX = s.ieSaveX ∧ (loadShift b s).ieSaveI = s.ieSaveI ∧
    (loadShift b s).mseqSave = s.mseqSave ∧ (loadShift b s).dsr = s.dsr ∧ (loadShift b s).dout = s.dout ∧
    (loadShift b s).env = s.env ∧ (loadShift b s).hist = s.hist ∧ (loadShift b s).hung = s.hung ∧
    (loadShift b s).program = s.program ∧ (loadShift b s).misreads = s.misreads := by
  repeat' constructor

@[simp] theorem compareMatch_writes (s : State) :
    (compareMatch s).tickPend = (s.trun || s.tickPend) := by
  repeat' constructor

@[simp] theorem compareMatch_frame (s : State) :
    (compareMatch s).params = s.params ∧ (compareMatch s).sched = s.sched ∧ (compareMatch s).draws = s.draws ∧
    (compareMatch s).sr = s.sr ∧ (compareMatch s).cnt = s.cnt ∧ (compareMatch s).done = s.done ∧
    (compareMatch s).t1 = s.t1 ∧ (compareMatch s).t2 = s.t2 ∧ (compareMatch s).t3 = s.t3 ∧
    (compareMatch s).p1 = s.p1 ∧ (compareMatch s).p2 = s.p2 ∧ (compareMatch s).p3 = s.p3 ∧
    (compareMatch s).adct = s.adct ∧ (compareMatch s).adcp = s.adcp ∧ (compareMatch s).digits = s.digits ∧
    (compareMatch s).results = s.results ∧ (compareMatch s).replies = s.replies ∧ (compareMatch s).mseq = s.mseq ∧
    (compareMatch s).scan = s.scan ∧ (compareMatch s).ctx = s.ctx ∧ (compareMatch s).ie = s.ie ∧
    (compareMatch s).trun = s.trun ∧ (compareMatch s).cmp = s.cmp ∧ (compareMatch s).cs = s.cs ∧
    (compareMatch s).latch = s.latch ∧ (compareMatch s).ieSaveX = s.ieSaveX ∧ (compareMatch s).ieSaveI = s.ieSaveI ∧
    (compareMatch s).mseqSave = s.mseqSave ∧ (compareMatch s).dsr = s.dsr ∧ (compareMatch s).dout = s.dout ∧
    (compareMatch s).env = s.env ∧ (compareMatch s).hist = s.hist ∧ (compareMatch s).hung = s.hung ∧
    (compareMatch s).program = s.program ∧ (compareMatch s).misreads = s.misreads := by
  repeat' constructor

@[simp] theorem spendClock_writes (n : Nat) (s : State) :
    (spendClock n s).sched = { s.sched with clock := s.sched.clock.map (· - n) } := by
  repeat' constructor

@[simp] theorem spendClock_frame (n : Nat) (s : State) :
    (spendClock n s).params = s.params ∧ (spendClock n s).draws = s.draws ∧ (spendClock n s).sr = s.sr ∧
    (spendClock n s).cnt = s.cnt ∧ (spendClock n s).done = s.done ∧ (spendClock n s).t1 = s.t1 ∧
    (spendClock n s).t2 = s.t2 ∧ (spendClock n s).t3 = s.t3 ∧ (spendClock n s).p1 = s.p1 ∧
    (spendClock n s).p2 = s.p2 ∧ (spendClock n s).p3 = s.p3 ∧ (spendClock n s).adct = s.adct ∧
    (spendClock n s).adcp = s.adcp ∧ (spendClock n s).digits = s.digits ∧ (spendClock n s).results = s.results ∧
    (spendClock n s).replies = s.replies ∧ (spendClock n s).mseq = s.mseq ∧ (spendClock n s).scan = s.scan ∧
    (spendClock n s).ctx = s.ctx ∧ (spendClock n s).ie = s.ie ∧ (spendClock n s).tickPend = s.tickPend ∧
    (spendClock n s).trun = s.trun ∧ (spendClock n s).cmp = s.cmp ∧ (spendClock n s).cs = s.cs ∧
    (spendClock n s).latch = s.latch ∧ (spendClock n s).ieSaveX = s.ieSaveX ∧ (spendClock n s).ieSaveI = s.ieSaveI ∧
    (spendClock n s).mseqSave = s.mseqSave ∧ (spendClock n s).dsr = s.dsr ∧ (spendClock n s).dout = s.dout ∧
    (spendClock n s).env = s.env ∧ (spendClock n s).hist = s.hist ∧ (spendClock n s).hung = s.hung ∧
    (spendClock n s).program = s.program ∧ (spendClock n s).misreads = s.misreads := by
  repeat' constructor

@[simp] theorem takeArrival_writes (s : State) :
    (takeArrival s).sched = s.sched.afterArrival := by
  repeat' constructor

@[simp] theorem takeArrival_frame (s : State) :
    (takeArrival s).params = s.params ∧ (takeArrival s).draws = s.draws ∧ (takeArrival s).sr = s.sr ∧
    (takeArrival s).cnt = s.cnt ∧ (takeArrival s).done = s.done ∧ (takeArrival s).t1 = s.t1 ∧
    (takeArrival s).t2 = s.t2 ∧ (takeArrival s).t3 = s.t3 ∧ (takeArrival s).p1 = s.p1 ∧ (takeArrival s).p2 = s.p2 ∧
    (takeArrival s).p3 = s.p3 ∧ (takeArrival s).adct = s.adct ∧ (takeArrival s).adcp = s.adcp ∧
    (takeArrival s).digits = s.digits ∧ (takeArrival s).results = s.results ∧ (takeArrival s).replies = s.replies ∧
    (takeArrival s).mseq = s.mseq ∧ (takeArrival s).scan = s.scan ∧ (takeArrival s).ctx = s.ctx ∧
    (takeArrival s).ie = s.ie ∧ (takeArrival s).tickPend = s.tickPend ∧ (takeArrival s).trun = s.trun ∧
    (takeArrival s).cmp = s.cmp ∧ (takeArrival s).cs = s.cs ∧ (takeArrival s).latch = s.latch ∧
    (takeArrival s).ieSaveX = s.ieSaveX ∧ (takeArrival s).ieSaveI = s.ieSaveI ∧
    (takeArrival s).mseqSave = s.mseqSave ∧ (takeArrival s).dsr = s.dsr ∧ (takeArrival s).dout = s.dout ∧
    (takeArrival s).env = s.env ∧ (takeArrival s).hist = s.hist ∧ (takeArrival s).hung = s.hung ∧
    (takeArrival s).program = s.program ∧ (takeArrival s).misreads = s.misreads := by
  repeat' constructor

@[simp] theorem setArrivals_writes (a : List Bool) (s : State) :
    (setArrivals a s).sched = { s.sched with arrivals := a } := by
  repeat' constructor

@[simp] theorem setArrivals_frame (a : List Bool) (s : State) :
    (setArrivals a s).params = s.params ∧ (setArrivals a s).draws = s.draws ∧ (setArrivals a s).sr = s.sr ∧
    (setArrivals a s).cnt = s.cnt ∧ (setArrivals a s).done = s.done ∧ (setArrivals a s).t1 = s.t1 ∧
    (setArrivals a s).t2 = s.t2 ∧ (setArrivals a s).t3 = s.t3 ∧ (setArrivals a s).p1 = s.p1 ∧
    (setArrivals a s).p2 = s.p2 ∧ (setArrivals a s).p3 = s.p3 ∧ (setArrivals a s).adct = s.adct ∧
    (setArrivals a s).adcp = s.adcp ∧ (setArrivals a s).digits = s.digits ∧ (setArrivals a s).results = s.results ∧
    (setArrivals a s).replies = s.replies ∧ (setArrivals a s).mseq = s.mseq ∧ (setArrivals a s).scan = s.scan ∧
    (setArrivals a s).ctx = s.ctx ∧ (setArrivals a s).ie = s.ie ∧ (setArrivals a s).tickPend = s.tickPend ∧
    (setArrivals a s).trun = s.trun ∧ (setArrivals a s).cmp = s.cmp ∧ (setArrivals a s).cs = s.cs ∧
    (setArrivals a s).latch = s.latch ∧ (setArrivals a s).ieSaveX = s.ieSaveX ∧
    (setArrivals a s).ieSaveI = s.ieSaveI ∧ (setArrivals a s).mseqSave = s.mseqSave ∧ (setArrivals a s).dsr = s.dsr ∧
    (setArrivals a s).dout = s.dout ∧ (setArrivals a s).env = s.env ∧ (setArrivals a s).hist = s.hist ∧
    (setArrivals a s).hung = s.hung ∧ (setArrivals a s).program = s.program ∧ (setArrivals a s).misreads = s.misreads := by
  repeat' constructor

@[simp] theorem setOnward_writes (o : Onward) (s : State) :
    (setOnward o s).sched = { s.sched with arrivalsOnward := o } := by
  repeat' constructor

@[simp] theorem setOnward_frame (o : Onward) (s : State) :
    (setOnward o s).params = s.params ∧ (setOnward o s).draws = s.draws ∧ (setOnward o s).sr = s.sr ∧
    (setOnward o s).cnt = s.cnt ∧ (setOnward o s).done = s.done ∧ (setOnward o s).t1 = s.t1 ∧
    (setOnward o s).t2 = s.t2 ∧ (setOnward o s).t3 = s.t3 ∧ (setOnward o s).p1 = s.p1 ∧ (setOnward o s).p2 = s.p2 ∧
    (setOnward o s).p3 = s.p3 ∧ (setOnward o s).adct = s.adct ∧ (setOnward o s).adcp = s.adcp ∧
    (setOnward o s).digits = s.digits ∧ (setOnward o s).results = s.results ∧ (setOnward o s).replies = s.replies ∧
    (setOnward o s).mseq = s.mseq ∧ (setOnward o s).scan = s.scan ∧ (setOnward o s).ctx = s.ctx ∧
    (setOnward o s).ie = s.ie ∧ (setOnward o s).tickPend = s.tickPend ∧ (setOnward o s).trun = s.trun ∧
    (setOnward o s).cmp = s.cmp ∧ (setOnward o s).cs = s.cs ∧ (setOnward o s).latch = s.latch ∧
    (setOnward o s).ieSaveX = s.ieSaveX ∧ (setOnward o s).ieSaveI = s.ieSaveI ∧
    (setOnward o s).mseqSave = s.mseqSave ∧ (setOnward o s).dsr = s.dsr ∧ (setOnward o s).dout = s.dout ∧
    (setOnward o s).env = s.env ∧ (setOnward o s).hist = s.hist ∧ (setOnward o s).hung = s.hung ∧
    (setOnward o s).program = s.program ∧ (setOnward o s).misreads = s.misreads := by
  repeat' constructor

@[simp] theorem setIdles_writes (l : List Bool) (s : State) :
    (setIdles l s).sched = { s.sched with idles := l } := by
  repeat' constructor

@[simp] theorem setIdles_frame (l : List Bool) (s : State) :
    (setIdles l s).params = s.params ∧ (setIdles l s).draws = s.draws ∧ (setIdles l s).sr = s.sr ∧
    (setIdles l s).cnt = s.cnt ∧ (setIdles l s).done = s.done ∧ (setIdles l s).t1 = s.t1 ∧ (setIdles l s).t2 = s.t2 ∧
    (setIdles l s).t3 = s.t3 ∧ (setIdles l s).p1 = s.p1 ∧ (setIdles l s).p2 = s.p2 ∧ (setIdles l s).p3 = s.p3 ∧
    (setIdles l s).adct = s.adct ∧ (setIdles l s).adcp = s.adcp ∧ (setIdles l s).digits = s.digits ∧
    (setIdles l s).results = s.results ∧ (setIdles l s).replies = s.replies ∧ (setIdles l s).mseq = s.mseq ∧
    (setIdles l s).scan = s.scan ∧ (setIdles l s).ctx = s.ctx ∧ (setIdles l s).ie = s.ie ∧
    (setIdles l s).tickPend = s.tickPend ∧ (setIdles l s).trun = s.trun ∧ (setIdles l s).cmp = s.cmp ∧
    (setIdles l s).cs = s.cs ∧ (setIdles l s).latch = s.latch ∧ (setIdles l s).ieSaveX = s.ieSaveX ∧
    (setIdles l s).ieSaveI = s.ieSaveI ∧ (setIdles l s).mseqSave = s.mseqSave ∧ (setIdles l s).dsr = s.dsr ∧
    (setIdles l s).dout = s.dout ∧ (setIdles l s).env = s.env ∧ (setIdles l s).hist = s.hist ∧
    (setIdles l s).hung = s.hung ∧ (setIdles l s).program = s.program ∧ (setIdles l s).misreads = s.misreads := by
  repeat' constructor

@[simp] theorem record_writes (e : Event) (s : State) :
    (record e s).hist = s.hist ++ [e] := by
  repeat' constructor

@[simp] theorem record_frame (e : Event) (s : State) :
    (record e s).params = s.params ∧ (record e s).sched = s.sched ∧ (record e s).draws = s.draws ∧
    (record e s).sr = s.sr ∧ (record e s).cnt = s.cnt ∧ (record e s).done = s.done ∧ (record e s).t1 = s.t1 ∧
    (record e s).t2 = s.t2 ∧ (record e s).t3 = s.t3 ∧ (record e s).p1 = s.p1 ∧ (record e s).p2 = s.p2 ∧
    (record e s).p3 = s.p3 ∧ (record e s).adct = s.adct ∧ (record e s).adcp = s.adcp ∧
    (record e s).digits = s.digits ∧ (record e s).results = s.results ∧ (record e s).replies = s.replies ∧
    (record e s).mseq = s.mseq ∧ (record e s).scan = s.scan ∧ (record e s).ctx = s.ctx ∧ (record e s).ie = s.ie ∧
    (record e s).tickPend = s.tickPend ∧ (record e s).trun = s.trun ∧ (record e s).cmp = s.cmp ∧
    (record e s).cs = s.cs ∧ (record e s).latch = s.latch ∧ (record e s).ieSaveX = s.ieSaveX ∧
    (record e s).ieSaveI = s.ieSaveI ∧ (record e s).mseqSave = s.mseqSave ∧ (record e s).dsr = s.dsr ∧
    (record e s).dout = s.dout ∧ (record e s).env = s.env ∧ (record e s).hung = s.hung ∧
    (record e s).program = s.program ∧ (record e s).misreads = s.misreads := by
  repeat' constructor

@[simp] theorem assertCs_writes (s : State) :
    (assertCs s).cs = .asserted ∧ (assertCs s).env = [] ∧ (assertCs s).hist = s.hist ++ [.cs .asserted] := by
  repeat' constructor

@[simp] theorem assertCs_frame (s : State) :
    (assertCs s).params = s.params ∧ (assertCs s).sched = s.sched ∧ (assertCs s).draws = s.draws ∧
    (assertCs s).sr = s.sr ∧ (assertCs s).cnt = s.cnt ∧ (assertCs s).done = s.done ∧ (assertCs s).t1 = s.t1 ∧
    (assertCs s).t2 = s.t2 ∧ (assertCs s).t3 = s.t3 ∧ (assertCs s).p1 = s.p1 ∧ (assertCs s).p2 = s.p2 ∧
    (assertCs s).p3 = s.p3 ∧ (assertCs s).adct = s.adct ∧ (assertCs s).adcp = s.adcp ∧
    (assertCs s).digits = s.digits ∧ (assertCs s).results = s.results ∧ (assertCs s).replies = s.replies ∧
    (assertCs s).mseq = s.mseq ∧ (assertCs s).scan = s.scan ∧ (assertCs s).ctx = s.ctx ∧ (assertCs s).ie = s.ie ∧
    (assertCs s).tickPend = s.tickPend ∧ (assertCs s).trun = s.trun ∧ (assertCs s).cmp = s.cmp ∧
    (assertCs s).latch = s.latch ∧ (assertCs s).ieSaveX = s.ieSaveX ∧ (assertCs s).ieSaveI = s.ieSaveI ∧
    (assertCs s).mseqSave = s.mseqSave ∧ (assertCs s).dsr = s.dsr ∧ (assertCs s).dout = s.dout ∧
    (assertCs s).hung = s.hung ∧ (assertCs s).program = s.program ∧ (assertCs s).misreads = s.misreads := by
  repeat' constructor

@[simp] theorem deassertCs_writes (s : State) :
    (deassertCs s).cs = .deasserted ∧ (deassertCs s).env = [] ∧ (deassertCs s).hist = s.hist ++ [.cs .deasserted] := by
  repeat' constructor

@[simp] theorem deassertCs_frame (s : State) :
    (deassertCs s).params = s.params ∧ (deassertCs s).sched = s.sched ∧ (deassertCs s).draws = s.draws ∧
    (deassertCs s).sr = s.sr ∧ (deassertCs s).cnt = s.cnt ∧ (deassertCs s).done = s.done ∧ (deassertCs s).t1 = s.t1 ∧
    (deassertCs s).t2 = s.t2 ∧ (deassertCs s).t3 = s.t3 ∧ (deassertCs s).p1 = s.p1 ∧ (deassertCs s).p2 = s.p2 ∧
    (deassertCs s).p3 = s.p3 ∧ (deassertCs s).adct = s.adct ∧ (deassertCs s).adcp = s.adcp ∧
    (deassertCs s).digits = s.digits ∧ (deassertCs s).results = s.results ∧ (deassertCs s).replies = s.replies ∧
    (deassertCs s).mseq = s.mseq ∧ (deassertCs s).scan = s.scan ∧ (deassertCs s).ctx = s.ctx ∧
    (deassertCs s).ie = s.ie ∧ (deassertCs s).tickPend = s.tickPend ∧ (deassertCs s).trun = s.trun ∧
    (deassertCs s).cmp = s.cmp ∧ (deassertCs s).latch = s.latch ∧ (deassertCs s).ieSaveX = s.ieSaveX ∧
    (deassertCs s).ieSaveI = s.ieSaveI ∧ (deassertCs s).mseqSave = s.mseqSave ∧ (deassertCs s).dsr = s.dsr ∧
    (deassertCs s).dout = s.dout ∧ (deassertCs s).hung = s.hung ∧ (deassertCs s).program = s.program ∧
    (deassertCs s).misreads = s.misreads := by
  repeat' constructor

@[simp] theorem deassertLatch_writes (s : State) :
    (deassertLatch s).latch = .deasserted ∧ (deassertLatch s).hist = s.hist ++ [.latch .deasserted] := by
  repeat' constructor

@[simp] theorem deassertLatch_frame (s : State) :
    (deassertLatch s).params = s.params ∧ (deassertLatch s).sched = s.sched ∧ (deassertLatch s).draws = s.draws ∧
    (deassertLatch s).sr = s.sr ∧ (deassertLatch s).cnt = s.cnt ∧ (deassertLatch s).done = s.done ∧
    (deassertLatch s).t1 = s.t1 ∧ (deassertLatch s).t2 = s.t2 ∧ (deassertLatch s).t3 = s.t3 ∧
    (deassertLatch s).p1 = s.p1 ∧ (deassertLatch s).p2 = s.p2 ∧ (deassertLatch s).p3 = s.p3 ∧
    (deassertLatch s).adct = s.adct ∧ (deassertLatch s).adcp = s.adcp ∧ (deassertLatch s).digits = s.digits ∧
    (deassertLatch s).results = s.results ∧ (deassertLatch s).replies = s.replies ∧ (deassertLatch s).mseq = s.mseq ∧
    (deassertLatch s).scan = s.scan ∧ (deassertLatch s).ctx = s.ctx ∧ (deassertLatch s).ie = s.ie ∧
    (deassertLatch s).tickPend = s.tickPend ∧ (deassertLatch s).trun = s.trun ∧ (deassertLatch s).cmp = s.cmp ∧
    (deassertLatch s).cs = s.cs ∧ (deassertLatch s).ieSaveX = s.ieSaveX ∧ (deassertLatch s).ieSaveI = s.ieSaveI ∧
    (deassertLatch s).mseqSave = s.mseqSave ∧ (deassertLatch s).dsr = s.dsr ∧ (deassertLatch s).dout = s.dout ∧
    (deassertLatch s).env = s.env ∧ (deassertLatch s).hung = s.hung ∧ (deassertLatch s).program = s.program ∧
    (deassertLatch s).misreads = s.misreads := by
  repeat' constructor

@[simp] theorem assertLatch_writes (s : State) :
    (assertLatch s).latch = .asserted ∧ (assertLatch s).hist = s.hist ++ commitEvents s := by
  repeat' constructor

@[simp] theorem assertLatch_frame (s : State) :
    (assertLatch s).params = s.params ∧ (assertLatch s).sched = s.sched ∧ (assertLatch s).draws = s.draws ∧
    (assertLatch s).sr = s.sr ∧ (assertLatch s).cnt = s.cnt ∧ (assertLatch s).done = s.done ∧
    (assertLatch s).t1 = s.t1 ∧ (assertLatch s).t2 = s.t2 ∧ (assertLatch s).t3 = s.t3 ∧ (assertLatch s).p1 = s.p1 ∧
    (assertLatch s).p2 = s.p2 ∧ (assertLatch s).p3 = s.p3 ∧ (assertLatch s).adct = s.adct ∧
    (assertLatch s).adcp = s.adcp ∧ (assertLatch s).digits = s.digits ∧ (assertLatch s).results = s.results ∧
    (assertLatch s).replies = s.replies ∧ (assertLatch s).mseq = s.mseq ∧ (assertLatch s).scan = s.scan ∧
    (assertLatch s).ctx = s.ctx ∧ (assertLatch s).ie = s.ie ∧ (assertLatch s).tickPend = s.tickPend ∧
    (assertLatch s).trun = s.trun ∧ (assertLatch s).cmp = s.cmp ∧ (assertLatch s).cs = s.cs ∧
    (assertLatch s).ieSaveX = s.ieSaveX ∧ (assertLatch s).ieSaveI = s.ieSaveI ∧
    (assertLatch s).mseqSave = s.mseqSave ∧ (assertLatch s).dsr = s.dsr ∧ (assertLatch s).env = s.env ∧
    (assertLatch s).hung = s.hung ∧ (assertLatch s).program = s.program ∧ (assertLatch s).misreads = s.misreads := by
  repeat' constructor

@[simp] theorem xferStart_writes (b : Byte) (s : State) :
    (xferStart b s).draws = s.draws + 1 ∧ (xferStart b s).sr = b ∧ (xferStart b s).cnt = 0 ∧
    (xferStart b s).done = false ∧ (xferStart b s).ie = false ∧ (xferStart b s).ieSaveX = s.ie := by
  repeat' constructor

@[simp] theorem xferStart_frame (b : Byte) (s : State) :
    (xferStart b s).params = s.params ∧ (xferStart b s).sched = s.sched ∧ (xferStart b s).t1 = s.t1 ∧
    (xferStart b s).t2 = s.t2 ∧ (xferStart b s).t3 = s.t3 ∧ (xferStart b s).p1 = s.p1 ∧ (xferStart b s).p2 = s.p2 ∧
    (xferStart b s).p3 = s.p3 ∧ (xferStart b s).adct = s.adct ∧ (xferStart b s).adcp = s.adcp ∧
    (xferStart b s).digits = s.digits ∧ (xferStart b s).results = s.results ∧ (xferStart b s).replies = s.replies ∧
    (xferStart b s).mseq = s.mseq ∧ (xferStart b s).scan = s.scan ∧ (xferStart b s).ctx = s.ctx ∧
    (xferStart b s).tickPend = s.tickPend ∧ (xferStart b s).trun = s.trun ∧ (xferStart b s).cmp = s.cmp ∧
    (xferStart b s).cs = s.cs ∧ (xferStart b s).latch = s.latch ∧ (xferStart b s).ieSaveI = s.ieSaveI ∧
    (xferStart b s).mseqSave = s.mseqSave ∧ (xferStart b s).dsr = s.dsr ∧ (xferStart b s).dout = s.dout ∧
    (xferStart b s).env = s.env ∧ (xferStart b s).hist = s.hist ∧ (xferStart b s).hung = s.hung ∧
    (xferStart b s).program = s.program ∧ (xferStart b s).misreads = s.misreads := by
  repeat' constructor

@[simp] theorem xferFinish_writes (b rin : Byte) (s : State) :
    (xferFinish b rin s).sr = rin ∧ (xferFinish b rin s).cnt = 8 ∧ (xferFinish b rin s).done = true ∧
    (xferFinish b rin s).ie = s.ieSaveX ∧ (xferFinish b rin s).dsr = b ∧
    (xferFinish b rin s).hist = s.hist ++ [.xfer b rin] := by
  repeat' constructor

@[simp] theorem xferFinish_frame (b rin : Byte) (s : State) :
    (xferFinish b rin s).params = s.params ∧ (xferFinish b rin s).sched = s.sched ∧
    (xferFinish b rin s).draws = s.draws ∧ (xferFinish b rin s).t1 = s.t1 ∧ (xferFinish b rin s).t2 = s.t2 ∧
    (xferFinish b rin s).t3 = s.t3 ∧ (xferFinish b rin s).p1 = s.p1 ∧ (xferFinish b rin s).p2 = s.p2 ∧
    (xferFinish b rin s).p3 = s.p3 ∧ (xferFinish b rin s).adct = s.adct ∧ (xferFinish b rin s).adcp = s.adcp ∧
    (xferFinish b rin s).digits = s.digits ∧ (xferFinish b rin s).results = s.results ∧
    (xferFinish b rin s).replies = s.replies ∧ (xferFinish b rin s).mseq = s.mseq ∧
    (xferFinish b rin s).scan = s.scan ∧ (xferFinish b rin s).ctx = s.ctx ∧
    (xferFinish b rin s).tickPend = s.tickPend ∧ (xferFinish b rin s).trun = s.trun ∧
    (xferFinish b rin s).cmp = s.cmp ∧ (xferFinish b rin s).cs = s.cs ∧ (xferFinish b rin s).latch = s.latch ∧
    (xferFinish b rin s).ieSaveX = s.ieSaveX ∧ (xferFinish b rin s).ieSaveI = s.ieSaveI ∧
    (xferFinish b rin s).mseqSave = s.mseqSave ∧ (xferFinish b rin s).dout = s.dout ∧
    (xferFinish b rin s).hung = s.hung ∧ (xferFinish b rin s).program = s.program ∧
    (xferFinish b rin s).misreads = s.misreads := by
  repeat' constructor

@[simp] theorem glyphRead_frame (d : Byte) (s : State) :
    (glyphRead d s).params = s.params ∧ (glyphRead d s).sched = s.sched ∧ (glyphRead d s).sr = s.sr ∧
    (glyphRead d s).cnt = s.cnt ∧ (glyphRead d s).done = s.done ∧ (glyphRead d s).t1 = s.t1 ∧
    (glyphRead d s).t2 = s.t2 ∧ (glyphRead d s).t3 = s.t3 ∧ (glyphRead d s).p1 = s.p1 ∧ (glyphRead d s).p2 = s.p2 ∧
    (glyphRead d s).p3 = s.p3 ∧ (glyphRead d s).adct = s.adct ∧ (glyphRead d s).adcp = s.adcp ∧
    (glyphRead d s).digits = s.digits ∧ (glyphRead d s).results = s.results ∧ (glyphRead d s).replies = s.replies ∧
    (glyphRead d s).mseq = s.mseq ∧ (glyphRead d s).scan = s.scan ∧ (glyphRead d s).ctx = s.ctx ∧
    (glyphRead d s).ie = s.ie ∧ (glyphRead d s).tickPend = s.tickPend ∧ (glyphRead d s).trun = s.trun ∧
    (glyphRead d s).cmp = s.cmp ∧ (glyphRead d s).cs = s.cs ∧ (glyphRead d s).latch = s.latch ∧
    (glyphRead d s).ieSaveX = s.ieSaveX ∧ (glyphRead d s).ieSaveI = s.ieSaveI ∧
    (glyphRead d s).mseqSave = s.mseqSave ∧ (glyphRead d s).dsr = s.dsr ∧ (glyphRead d s).dout = s.dout ∧
    (glyphRead d s).env = s.env ∧ (glyphRead d s).hist = s.hist ∧ (glyphRead d s).hung = s.hung ∧
    (glyphRead d s).program = s.program ∧ (glyphRead d s).misreads = s.misreads := by
  repeat' constructor

@[simp] theorem irqEnter_writes (s : State) :
    (irqEnter s).ctx = .isr ∧ (irqEnter s).ie = false ∧ (irqEnter s).tickPend = false ∧ (irqEnter s).ieSaveI = s.ie ∧
    (irqEnter s).mseqSave = s.mseq ∧ (irqEnter s).hist = s.hist ++ [.irqEnter] := by
  repeat' constructor

@[simp] theorem irqEnter_frame (s : State) :
    (irqEnter s).params = s.params ∧ (irqEnter s).sched = s.sched ∧ (irqEnter s).draws = s.draws ∧
    (irqEnter s).sr = s.sr ∧ (irqEnter s).cnt = s.cnt ∧ (irqEnter s).done = s.done ∧ (irqEnter s).t1 = s.t1 ∧
    (irqEnter s).t2 = s.t2 ∧ (irqEnter s).t3 = s.t3 ∧ (irqEnter s).p1 = s.p1 ∧ (irqEnter s).p2 = s.p2 ∧
    (irqEnter s).p3 = s.p3 ∧ (irqEnter s).adct = s.adct ∧ (irqEnter s).adcp = s.adcp ∧
    (irqEnter s).digits = s.digits ∧ (irqEnter s).results = s.results ∧ (irqEnter s).replies = s.replies ∧
    (irqEnter s).mseq = s.mseq ∧ (irqEnter s).scan = s.scan ∧ (irqEnter s).trun = s.trun ∧ (irqEnter s).cmp = s.cmp ∧
    (irqEnter s).cs = s.cs ∧ (irqEnter s).latch = s.latch ∧ (irqEnter s).ieSaveX = s.ieSaveX ∧
    (irqEnter s).dsr = s.dsr ∧ (irqEnter s).dout = s.dout ∧ (irqEnter s).env = s.env ∧ (irqEnter s).hung = s.hung ∧
    (irqEnter s).program = s.program ∧ (irqEnter s).misreads = s.misreads := by
  repeat' constructor

@[simp] theorem irqReturn_writes (s : State) :
    (irqReturn s).mseq = s.mseqSave ∧ (irqReturn s).ctx = .main ∧ (irqReturn s).ie = s.ieSaveI ∧
    (irqReturn s).hist = s.hist ++ [.irqReturn] := by
  repeat' constructor

@[simp] theorem irqReturn_frame (s : State) :
    (irqReturn s).params = s.params ∧ (irqReturn s).sched = s.sched ∧ (irqReturn s).draws = s.draws ∧
    (irqReturn s).sr = s.sr ∧ (irqReturn s).cnt = s.cnt ∧ (irqReturn s).done = s.done ∧ (irqReturn s).t1 = s.t1 ∧
    (irqReturn s).t2 = s.t2 ∧ (irqReturn s).t3 = s.t3 ∧ (irqReturn s).p1 = s.p1 ∧ (irqReturn s).p2 = s.p2 ∧
    (irqReturn s).p3 = s.p3 ∧ (irqReturn s).adct = s.adct ∧ (irqReturn s).adcp = s.adcp ∧
    (irqReturn s).digits = s.digits ∧ (irqReturn s).results = s.results ∧ (irqReturn s).replies = s.replies ∧
    (irqReturn s).scan = s.scan ∧ (irqReturn s).tickPend = s.tickPend ∧ (irqReturn s).trun = s.trun ∧
    (irqReturn s).cmp = s.cmp ∧ (irqReturn s).cs = s.cs ∧ (irqReturn s).latch = s.latch ∧
    (irqReturn s).ieSaveX = s.ieSaveX ∧ (irqReturn s).ieSaveI = s.ieSaveI ∧ (irqReturn s).mseqSave = s.mseqSave ∧
    (irqReturn s).dsr = s.dsr ∧ (irqReturn s).dout = s.dout ∧ (irqReturn s).env = s.env ∧
    (irqReturn s).hung = s.hung ∧ (irqReturn s).program = s.program ∧ (irqReturn s).misreads = s.misreads := by
  repeat' constructor

@[simp] theorem compensateTemp_writes (s : State) :
    (compensateTemp s).draws = s.draws + tempDraws s ∧ (compensateTemp s).misreads = s.misreads ++ tempMisreads s := by
  repeat' constructor

@[simp] theorem compensateTemp_frame (s : State) :
    (compensateTemp s).params = s.params ∧ (compensateTemp s).sched = s.sched ∧ (compensateTemp s).sr = s.sr ∧
    (compensateTemp s).cnt = s.cnt ∧ (compensateTemp s).done = s.done ∧ (compensateTemp s).t1 = s.t1 ∧
    (compensateTemp s).t2 = s.t2 ∧ (compensateTemp s).t3 = s.t3 ∧ (compensateTemp s).p1 = s.p1 ∧
    (compensateTemp s).p2 = s.p2 ∧ (compensateTemp s).p3 = s.p3 ∧ (compensateTemp s).adct = s.adct ∧
    (compensateTemp s).adcp = s.adcp ∧ (compensateTemp s).digits = s.digits ∧
    (compensateTemp s).replies = s.replies ∧ (compensateTemp s).mseq = s.mseq ∧ (compensateTemp s).scan = s.scan ∧
    (compensateTemp s).ctx = s.ctx ∧ (compensateTemp s).ie = s.ie ∧ (compensateTemp s).tickPend = s.tickPend ∧
    (compensateTemp s).trun = s.trun ∧ (compensateTemp s).cmp = s.cmp ∧ (compensateTemp s).cs = s.cs ∧
    (compensateTemp s).latch = s.latch ∧ (compensateTemp s).ieSaveX = s.ieSaveX ∧
    (compensateTemp s).ieSaveI = s.ieSaveI ∧ (compensateTemp s).mseqSave = s.mseqSave ∧
    (compensateTemp s).dsr = s.dsr ∧ (compensateTemp s).dout = s.dout ∧ (compensateTemp s).env = s.env ∧
    (compensateTemp s).hist = s.hist ∧ (compensateTemp s).hung = s.hung ∧ (compensateTemp s).program = s.program := by
  repeat' constructor

@[simp] theorem compensatePressure_writes (s : State) :
    (compensatePressure s).draws = s.draws + pressureDraws s ∧
    (compensatePressure s).misreads = s.misreads ++ pressureMisreads s := by
  repeat' constructor

@[simp] theorem compensatePressure_frame (s : State) :
    (compensatePressure s).params = s.params ∧ (compensatePressure s).sched = s.sched ∧
    (compensatePressure s).sr = s.sr ∧ (compensatePressure s).cnt = s.cnt ∧ (compensatePressure s).done = s.done ∧
    (compensatePressure s).t1 = s.t1 ∧ (compensatePressure s).t2 = s.t2 ∧ (compensatePressure s).t3 = s.t3 ∧
    (compensatePressure s).p1 = s.p1 ∧ (compensatePressure s).p2 = s.p2 ∧ (compensatePressure s).p3 = s.p3 ∧
    (compensatePressure s).adct = s.adct ∧ (compensatePressure s).adcp = s.adcp ∧
    (compensatePressure s).digits = s.digits ∧ (compensatePressure s).replies = s.replies ∧
    (compensatePressure s).mseq = s.mseq ∧ (compensatePressure s).scan = s.scan ∧
    (compensatePressure s).ctx = s.ctx ∧ (compensatePressure s).ie = s.ie ∧
    (compensatePressure s).tickPend = s.tickPend ∧ (compensatePressure s).trun = s.trun ∧
    (compensatePressure s).cmp = s.cmp ∧ (compensatePressure s).cs = s.cs ∧ (compensatePressure s).latch = s.latch ∧
    (compensatePressure s).ieSaveX = s.ieSaveX ∧ (compensatePressure s).ieSaveI = s.ieSaveI ∧
    (compensatePressure s).mseqSave = s.mseqSave ∧ (compensatePressure s).dsr = s.dsr ∧
    (compensatePressure s).dout = s.dout ∧ (compensatePressure s).env = s.env ∧
    (compensatePressure s).hist = s.hist ∧ (compensatePressure s).hung = s.hung ∧
    (compensatePressure s).program = s.program := by
  repeat' constructor

@[simp] theorem startTimer_writes (s : State) :
    (startTimer s).trun = true ∧ (startTimer s).cmp = s.params.timerCount - 1 := by
  repeat' constructor

@[simp] theorem startTimer_frame (s : State) :
    (startTimer s).params = s.params ∧ (startTimer s).sched = s.sched ∧ (startTimer s).draws = s.draws ∧
    (startTimer s).sr = s.sr ∧ (startTimer s).cnt = s.cnt ∧ (startTimer s).done = s.done ∧ (startTimer s).t1 = s.t1 ∧
    (startTimer s).t2 = s.t2 ∧ (startTimer s).t3 = s.t3 ∧ (startTimer s).p1 = s.p1 ∧ (startTimer s).p2 = s.p2 ∧
    (startTimer s).p3 = s.p3 ∧ (startTimer s).adct = s.adct ∧ (startTimer s).adcp = s.adcp ∧
    (startTimer s).digits = s.digits ∧ (startTimer s).results = s.results ∧ (startTimer s).replies = s.replies ∧
    (startTimer s).mseq = s.mseq ∧ (startTimer s).scan = s.scan ∧ (startTimer s).ctx = s.ctx ∧
    (startTimer s).ie = s.ie ∧ (startTimer s).tickPend = s.tickPend ∧ (startTimer s).cs = s.cs ∧
    (startTimer s).latch = s.latch ∧ (startTimer s).ieSaveX = s.ieSaveX ∧ (startTimer s).ieSaveI = s.ieSaveI ∧
    (startTimer s).mseqSave = s.mseqSave ∧ (startTimer s).dsr = s.dsr ∧ (startTimer s).dout = s.dout ∧
    (startTimer s).env = s.env ∧ (startTimer s).hist = s.hist ∧ (startTimer s).hung = s.hung ∧
    (startTimer s).program = s.program ∧ (startTimer s).misreads = s.misreads := by
  repeat' constructor

@[simp] theorem publish_writes (k : Digit) (s : State) :
    (publish k s).digits = s.digits.set k (s.results.get k) ∧
    (publish k s).hist = s.hist ++ [.pub k (s.results.get k)] := by
  repeat' constructor

@[simp] theorem publish_frame (k : Digit) (s : State) :
    (publish k s).params = s.params ∧ (publish k s).sched = s.sched ∧ (publish k s).draws = s.draws ∧
    (publish k s).sr = s.sr ∧ (publish k s).cnt = s.cnt ∧ (publish k s).done = s.done ∧ (publish k s).t1 = s.t1 ∧
    (publish k s).t2 = s.t2 ∧ (publish k s).t3 = s.t3 ∧ (publish k s).p1 = s.p1 ∧ (publish k s).p2 = s.p2 ∧
    (publish k s).p3 = s.p3 ∧ (publish k s).adct = s.adct ∧ (publish k s).adcp = s.adcp ∧
    (publish k s).results = s.results ∧ (publish k s).replies = s.replies ∧ (publish k s).mseq = s.mseq ∧
    (publish k s).scan = s.scan ∧ (publish k s).ctx = s.ctx ∧ (publish k s).ie = s.ie ∧
    (publish k s).tickPend = s.tickPend ∧ (publish k s).trun = s.trun ∧ (publish k s).cmp = s.cmp ∧
    (publish k s).cs = s.cs ∧ (publish k s).latch = s.latch ∧ (publish k s).ieSaveX = s.ieSaveX ∧
    (publish k s).ieSaveI = s.ieSaveI ∧ (publish k s).mseqSave = s.mseqSave ∧ (publish k s).dsr = s.dsr ∧
    (publish k s).dout = s.dout ∧ (publish k s).env = s.env ∧ (publish k s).hung = s.hung ∧
    (publish k s).program = s.program ∧ (publish k s).misreads = s.misreads := by
  repeat' constructor

@[simp] theorem setBytes_writes (r : List Byte) (s : State) :
    (setBytes r s).program = { s.program with bytes := r } := by
  repeat' constructor

@[simp] theorem setBytes_frame (r : List Byte) (s : State) :
    (setBytes r s).params = s.params ∧ (setBytes r s).sched = s.sched ∧ (setBytes r s).draws = s.draws ∧
    (setBytes r s).sr = s.sr ∧ (setBytes r s).cnt = s.cnt ∧ (setBytes r s).done = s.done ∧ (setBytes r s).t1 = s.t1 ∧
    (setBytes r s).t2 = s.t2 ∧ (setBytes r s).t3 = s.t3 ∧ (setBytes r s).p1 = s.p1 ∧ (setBytes r s).p2 = s.p2 ∧
    (setBytes r s).p3 = s.p3 ∧ (setBytes r s).adct = s.adct ∧ (setBytes r s).adcp = s.adcp ∧
    (setBytes r s).digits = s.digits ∧ (setBytes r s).results = s.results ∧ (setBytes r s).replies = s.replies ∧
    (setBytes r s).mseq = s.mseq ∧ (setBytes r s).scan = s.scan ∧ (setBytes r s).ctx = s.ctx ∧
    (setBytes r s).ie = s.ie ∧ (setBytes r s).tickPend = s.tickPend ∧ (setBytes r s).trun = s.trun ∧
    (setBytes r s).cmp = s.cmp ∧ (setBytes r s).cs = s.cs ∧ (setBytes r s).latch = s.latch ∧
    (setBytes r s).ieSaveX = s.ieSaveX ∧ (setBytes r s).ieSaveI = s.ieSaveI ∧ (setBytes r s).mseqSave = s.mseqSave ∧
    (setBytes r s).dsr = s.dsr ∧ (setBytes r s).dout = s.dout ∧ (setBytes r s).env = s.env ∧
    (setBytes r s).hist = s.hist ∧ (setBytes r s).hung = s.hung ∧ (setBytes r s).misreads = s.misreads := by
  repeat' constructor

@[simp] theorem advanceMseq_writes (s : State) :
    (advanceMseq s).mseq = mseqNext s.sched.nextIdle s.mseq := by
  repeat' constructor

@[simp] theorem advanceMseq_frame (s : State) :
    (advanceMseq s).params = s.params ∧ (advanceMseq s).draws = s.draws ∧ (advanceMseq s).sr = s.sr ∧
    (advanceMseq s).cnt = s.cnt ∧ (advanceMseq s).done = s.done ∧ (advanceMseq s).t1 = s.t1 ∧
    (advanceMseq s).t2 = s.t2 ∧ (advanceMseq s).t3 = s.t3 ∧ (advanceMseq s).p1 = s.p1 ∧ (advanceMseq s).p2 = s.p2 ∧
    (advanceMseq s).p3 = s.p3 ∧ (advanceMseq s).adct = s.adct ∧ (advanceMseq s).adcp = s.adcp ∧
    (advanceMseq s).digits = s.digits ∧ (advanceMseq s).results = s.results ∧ (advanceMseq s).replies = s.replies ∧
    (advanceMseq s).scan = s.scan ∧ (advanceMseq s).ctx = s.ctx ∧ (advanceMseq s).ie = s.ie ∧
    (advanceMseq s).tickPend = s.tickPend ∧ (advanceMseq s).trun = s.trun ∧ (advanceMseq s).cmp = s.cmp ∧
    (advanceMseq s).cs = s.cs ∧ (advanceMseq s).latch = s.latch ∧ (advanceMseq s).ieSaveX = s.ieSaveX ∧
    (advanceMseq s).ieSaveI = s.ieSaveI ∧ (advanceMseq s).mseqSave = s.mseqSave ∧ (advanceMseq s).dsr = s.dsr ∧
    (advanceMseq s).dout = s.dout ∧ (advanceMseq s).env = s.env ∧ (advanceMseq s).hist = s.hist ∧
    (advanceMseq s).hung = s.hung ∧ (advanceMseq s).program = s.program ∧ (advanceMseq s).misreads = s.misreads := by
  repeat' constructor

end Sys2Proof.Machine
end

