-- ==== Sys2Proof/Laws/Ops.lean ====
section
/-! SUPPORT. One lemma for each shared operation that says what it can do: its frame, and what it writes when the clock runs
or stalls. Proofs cite these and do not unfold the operations. -/

namespace Sys2Proof.Machine

open Sys2Proof

/-! ### Going on after an operation -/

/-- What `andThen` can answer when it goes on: the first operation left a hung block, or the second ran. -/
theorem andThen_next {o : Result} {k : State → Result} {t : State} (h : andThen o k = .next t) :
    ∃ s, o = .next s ∧ ((s.hung = true ∧ t = s) ∨ (s.hung = false ∧ k s = .next t)) := by
  cases o with
  | next s =>
    refine ⟨s, rfl, ?_⟩
    simp only [andThen] at h
    split at h
    · rename_i hs; cases h; exact .inl ⟨hs, rfl⟩
    · rename_i hs; exact .inr ⟨by simpa using hs, h⟩
  | fault r => cases h
  | refused r => cases h

/-- After a block that is not hung, `andThen` runs the second operation. -/
@[simp] theorem andThen_of_running {s : State} {k : State → Result} (h : s.hung = false) :
    andThen (.next s) k = k s := by
  simp [andThen, h]

/-- After a hung block nothing follows. -/
@[simp] theorem andThen_of_hung {s : State} {k : State → Result} (h : s.hung = true) :
    andThen (.next s) k = .next s := by
  simp [andThen, h]

/-! ### One byte transfer -/

@[simp] theorem pulse_frame (b rin : Byte) (s : State) (k : Fin 8) :
    (pulse b rin s k).params = s.params ∧ (pulse b rin s k).sched = s.sched ∧ (pulse b rin s k).draws = s.draws ∧
    (pulse b rin s k).done = s.done ∧ (pulse b rin s k).t1 = s.t1 ∧ (pulse b rin s k).t2 = s.t2 ∧
    (pulse b rin s k).t3 = s.t3 ∧ (pulse b rin s k).p1 = s.p1 ∧ (pulse b rin s k).p2 = s.p2 ∧
    (pulse b rin s k).p3 = s.p3 ∧ (pulse b rin s k).adct = s.adct ∧ (pulse b rin s k).adcp = s.adcp ∧
    (pulse b rin s k).digits = s.digits ∧ (pulse b rin s k).results = s.results ∧
    (pulse b rin s k).replies = s.replies ∧ (pulse b rin s k).mseq = s.mseq ∧ (pulse b rin s k).scan = s.scan ∧
    (pulse b rin s k).ctx = s.ctx ∧ (pulse b rin s k).ie = s.ie ∧ (pulse b rin s k).tickPend = s.tickPend ∧
    (pulse b rin s k).trun = s.trun ∧ (pulse b rin s k).cmp = s.cmp ∧ (pulse b rin s k).cs = s.cs ∧
    (pulse b rin s k).latch = s.latch ∧ (pulse b rin s k).ieSaveX = s.ieSaveX ∧
    (pulse b rin s k).ieSaveI = s.ieSaveI ∧ (pulse b rin s k).mseqSave = s.mseqSave ∧
    (pulse b rin s k).dout = s.dout ∧ (pulse b rin s k).env = s.env ∧ (pulse b rin s k).hist = s.hist ∧
    (pulse b rin s k).hung = s.hung ∧ (pulse b rin s k).program = s.program := by
  repeat' constructor

theorem pulse_foldl_frame (b rin : Byte) (l : List (Fin 8)) (s : State) :
    (l.foldl (pulse b rin) s).params = s.params ∧ (l.foldl (pulse b rin) s).sched = s.sched ∧
    (l.foldl (pulse b rin) s).draws = s.draws ∧ (l.foldl (pulse b rin) s).done = s.done ∧
    (l.foldl (pulse b rin) s).t1 = s.t1 ∧ (l.foldl (pulse b rin) s).t2 = s.t2 ∧ (l.foldl (pulse b rin) s).t3 = s.t3 ∧
    (l.foldl (pulse b rin) s).p1 = s.p1 ∧ (l.foldl (pulse b rin) s).p2 = s.p2 ∧ (l.foldl (pulse b rin) s).p3 = s.p3 ∧
    (l.foldl (pulse b rin) s).adct = s.adct ∧ (l.foldl (pulse b rin) s).adcp = s.adcp ∧
    (l.foldl (pulse b rin) s).digits = s.digits ∧ (l.foldl (pulse b rin) s).results = s.results ∧
    (l.foldl (pulse b rin) s).replies = s.replies ∧ (l.foldl (pulse b rin) s).mseq = s.mseq ∧
    (l.foldl (pulse b rin) s).scan = s.scan ∧ (l.foldl (pulse b rin) s).ctx = s.ctx ∧
    (l.foldl (pulse b rin) s).ie = s.ie ∧ (l.foldl (pulse b rin) s).tickPend = s.tickPend ∧
    (l.foldl (pulse b rin) s).trun = s.trun ∧ (l.foldl (pulse b rin) s).cmp = s.cmp ∧
    (l.foldl (pulse b rin) s).cs = s.cs ∧ (l.foldl (pulse b rin) s).latch = s.latch ∧
    (l.foldl (pulse b rin) s).ieSaveX = s.ieSaveX ∧ (l.foldl (pulse b rin) s).ieSaveI = s.ieSaveI ∧
    (l.foldl (pulse b rin) s).mseqSave = s.mseqSave ∧ (l.foldl (pulse b rin) s).dout = s.dout ∧
    (l.foldl (pulse b rin) s).env = s.env ∧ (l.foldl (pulse b rin) s).hist = s.hist ∧
    (l.foldl (pulse b rin) s).hung = s.hung ∧ (l.foldl (pulse b rin) s).program = s.program := by
  induction l generalizing s with
  | nil => repeat' constructor
  | cons k l ih => simpa using ih (pulse b rin s k)

/-- Clock pulses change the two shift registers and the pulse counter, nothing else (R122). -/
@[simp] theorem pulses_frame (n : Nat) (b rin : Byte) (s : State) :
    (pulses n b rin s).params = s.params ∧ (pulses n b rin s).sched = s.sched ∧ (pulses n b rin s).draws = s.draws ∧
    (pulses n b rin s).done = s.done ∧ (pulses n b rin s).t1 = s.t1 ∧ (pulses n b rin s).t2 = s.t2 ∧
    (pulses n b rin s).t3 = s.t3 ∧ (pulses n b rin s).p1 = s.p1 ∧ (pulses n b rin s).p2 = s.p2 ∧
    (pulses n b rin s).p3 = s.p3 ∧ (pulses n b rin s).adct = s.adct ∧ (pulses n b rin s).adcp = s.adcp ∧
    (pulses n b rin s).digits = s.digits ∧ (pulses n b rin s).results = s.results ∧
    (pulses n b rin s).replies = s.replies ∧ (pulses n b rin s).mseq = s.mseq ∧ (pulses n b rin s).scan = s.scan ∧
    (pulses n b rin s).ctx = s.ctx ∧ (pulses n b rin s).ie = s.ie ∧ (pulses n b rin s).tickPend = s.tickPend ∧
    (pulses n b rin s).trun = s.trun ∧ (pulses n b rin s).cmp = s.cmp ∧ (pulses n b rin s).cs = s.cs ∧
    (pulses n b rin s).latch = s.latch ∧ (pulses n b rin s).ieSaveX = s.ieSaveX ∧
    (pulses n b rin s).ieSaveI = s.ieSaveI ∧ (pulses n b rin s).mseqSave = s.mseqSave ∧
    (pulses n b rin s).dout = s.dout ∧ (pulses n b rin s).env = s.env ∧ (pulses n b rin s).hist = s.hist ∧
    (pulses n b rin s).hung = s.hung ∧ (pulses n b rin s).program = s.program :=
  pulse_foldl_frame b rin _ s

/-- `XFER` "does not read or write `LATCH`, `DOUT`, `SCAN`, any coefficient, sample or digit" (R121), whether it completes or
hangs; it takes one free draw. -/
@[simp] theorem xfer_frame (b : Byte) (s : State) :
    (xfer b s).params = s.params ∧ (xfer b s).t1 = s.t1 ∧ (xfer b s).t2 = s.t2 ∧ (xfer b s).t3 = s.t3 ∧
    (xfer b s).p1 = s.p1 ∧ (xfer b s).p2 = s.p2 ∧ (xfer b s).p3 = s.p3 ∧ (xfer b s).adct = s.adct ∧
    (xfer b s).adcp = s.adcp ∧ (xfer b s).digits = s.digits ∧ (xfer b s).results = s.results ∧
    (xfer b s).replies = s.replies ∧ (xfer b s).mseq = s.mseq ∧ (xfer b s).scan = s.scan ∧ (xfer b s).ctx = s.ctx ∧
    (xfer b s).tickPend = s.tickPend ∧ (xfer b s).trun = s.trun ∧ (xfer b s).cmp = s.cmp ∧ (xfer b s).cs = s.cs ∧
    (xfer b s).latch = s.latch ∧ (xfer b s).ieSaveI = s.ieSaveI ∧ (xfer b s).mseqSave = s.mseqSave ∧
    (xfer b s).dout = s.dout ∧ (xfer b s).program = s.program ∧ (xfer b s).sched.arrivals = s.sched.arrivals ∧
    (xfer b s).sched.idles = s.sched.idles ∧
    (xfer b s).sched.arrivalsOnward = s.sched.arrivalsOnward ∧ (xfer b s).sched.idlesOnward = s.sched.idlesOnward ∧
    (xfer b s).draws = s.draws + 1 := by
  unfold xfer xferHang
  split <;> simp

/-- A completed `XFER` (R121, R123). -/
theorem xfer_completes {b : Byte} {s : State} (h : clockGives 8 s = true) :
    (xfer b s).sr = incoming s ∧ (xfer b s).cnt = 8 ∧ (xfer b s).done = true ∧ (xfer b s).dsr = b ∧
    (xfer b s).ie = s.ie ∧ (xfer b s).ieSaveX = s.ie ∧ (xfer b s).hung = s.hung ∧
    (xfer b s).hist = s.hist ++ [.xfer b (incoming s)] ∧
    (xfer b s).env = (if s.cs = .asserted then s.env ++ [b] else s.env) ∧
    (xfer b s).sched = { s.sched with clock := s.sched.clock.map (· - 8) } := by
  unfold xfer
  rw [if_pos h]
  simp [xferFinish, restoreIrq, record]

/-- An `XFER` that never returns (R124, R311). -/
theorem xfer_hangs {b : Byte} {s : State} (h : clockGives 8 s = false) :
    (xfer b s).hung = true ∧ (xfer b s).ie = false ∧ (xfer b s).done = false ∧ (xfer b s).ieSaveX = s.ie ∧
    (xfer b s).hist = s.hist ∧ (xfer b s).env = s.env ∧
    (xfer b s).sched = { s.sched with clock := s.sched.clock.map (· - pulsesLeft s) } := by
  unfold xfer xferHang
  rw [if_neg (by simp [h])]
  simp

/-- `XFER` in both cases, as an alternative: it completes and keeps `IE`, or it hangs. -/
theorem xfer_cases (b : Byte) (s : State) :
    (clockGives 8 s = true ∧ (xfer b s).hung = s.hung ∧ (xfer b s).ie = s.ie ∧ (xfer b s).done = true ∧ (xfer b s).cnt = 8) ∨
    (clockGives 8 s = false ∧ (xfer b s).hung = true ∧ (xfer b s).ie = false ∧ (xfer b s).done = false) := by
  cases h : clockGives 8 s with
  | true =>
    have := xfer_completes (b := b) h
    exact .inl ⟨rfl, this.2.2.2.2.2.2.1, this.2.2.2.2.1, this.2.2.1, this.2.1⟩
  | false =>
    have := xfer_hangs (b := b) h
    exact .inr ⟨rfl, this.1, this.2.1, this.2.2.1⟩

/-! ### Glyph frame, tick, interrupt -/

/-- What `SHOW` leaves alone (R204). -/
@[simp] theorem showGlyph_frame (g : Byte) (s : State) :
    (showGlyph g s).params = s.params ∧ (showGlyph g s).t1 = s.t1 ∧ (showGlyph g s).t2 = s.t2 ∧
    (showGlyph g s).t3 = s.t3 ∧ (showGlyph g s).p1 = s.p1 ∧ (showGlyph g s).p2 = s.p2 ∧ (showGlyph g s).p3 = s.p3 ∧
    (showGlyph g s).adct = s.adct ∧ (showGlyph g s).adcp = s.adcp ∧ (showGlyph g s).digits = s.digits ∧
    (showGlyph g s).results = s.results ∧ (showGlyph g s).replies = s.replies ∧ (showGlyph g s).mseq = s.mseq ∧
    (showGlyph g s).scan = s.scan ∧ (showGlyph g s).ctx = s.ctx ∧ (showGlyph g s).tickPend = s.tickPend ∧
    (showGlyph g s).trun = s.trun ∧ (showGlyph g s).cmp = s.cmp ∧ (showGlyph g s).cs = s.cs ∧
    (showGlyph g s).ieSaveI = s.ieSaveI ∧ (showGlyph g s).mseqSave = s.mseqSave ∧
    (showGlyph g s).program = s.program ∧ (showGlyph g s).sched.arrivals = s.sched.arrivals ∧
    (showGlyph g s).sched.idles = s.sched.idles ∧
    (showGlyph g s).sched.arrivalsOnward = s.sched.arrivalsOnward ∧ (showGlyph g s).sched.idlesOnward = s.sched.idlesOnward ∧
    (showGlyph g s).draws = s.draws + 1 := by
  unfold showGlyph
  by_cases h : (xfer g (deassertLatch s)).hung <;> simp [h]

/-- A completed `SHOW` (R204): the latch is asserted again and the output is the glyph. -/
theorem showGlyph_completes {g : Byte} {s : State} (h : clockGives 8 s = true) (hs : s.hung = false) :
    (showGlyph g s).latch = .asserted ∧ (showGlyph g s).dout = g ∧ (showGlyph g s).dsr = g ∧
    (showGlyph g s).ie = s.ie ∧ (showGlyph g s).hung = false ∧ (showGlyph g s).cnt = 8 ∧ (showGlyph g s).done = true ∧
    (showGlyph g s).hist =
      s.hist ++ [.latch .deasserted, .xfer g (incoming s), .latch .asserted, .commit g] := by
  have hc : clockGives 8 (deassertLatch s) = true := h
  have hi : incoming (deassertLatch s) = incoming s := rfl
  have hx := xfer_completes (b := g) hc
  have hh : (xfer g (deassertLatch s)).hung = false := by rw [hx.2.2.2.2.2.2.1]; exact hs
  simp only [deassertLatch_frame, deassertLatch_writes, hi] at hx
  simp [showGlyph, hh, assertLatch, commitEvents, hx]

/-- The scan action sends at most one glyph frame (R206). -/
theorem scanAction_cases (k : Fin 10) (s : State) :
    scanAction k s = s ∨ ∃ g d, scanAction k s = showGlyph g { s with draws := d } := by
  have read (d : Byte) : ∃ g n, showDigit d s = showGlyph g { s with draws := n } := ⟨_, _, rfl⟩
  have plain (g : Byte) : ∃ g' n, showGlyph g s = showGlyph g' { s with draws := n } := ⟨g, s.draws, rfl⟩
  match k with
  | 0 => exact .inr (read s.digits.tTens)
  | 1 => exact .inr (read s.digits.tOnes)
  | 2 => exact .inr (plain s.params.glyphDp)
  | 3 => exact .inr (read s.digits.tTenths)
  | 4 => exact .inr (plain s.params.glyph[11])
  | 5 => exact .inr (read s.digits.pHundreds)
  | 6 => exact .inr (read s.digits.pTens)
  | 7 => exact .inr (read s.digits.pOnes)
  | 8 => exact .inr (plain s.params.glyph[10])
  | 9 => exact .inl rfl

/-- What a tick leaves alone (R212): every digit, coefficient and sample, `CS`, and all that is `MAIN`'s. -/
@[simp] theorem tickIn_frame (k : Fin 10) (s : State) :
    (tickIn k s).params = s.params ∧ (tickIn k s).t1 = s.t1 ∧ (tickIn k s).t2 = s.t2 ∧ (tickIn k s).t3 = s.t3 ∧
    (tickIn k s).p1 = s.p1 ∧ (tickIn k s).p2 = s.p2 ∧ (tickIn k s).p3 = s.p3 ∧ (tickIn k s).adct = s.adct ∧
    (tickIn k s).adcp = s.adcp ∧ (tickIn k s).digits = s.digits ∧ (tickIn k s).results = s.results ∧
    (tickIn k s).replies = s.replies ∧ (tickIn k s).mseq = s.mseq ∧ (tickIn k s).ctx = s.ctx ∧
    (tickIn k s).tickPend = s.tickPend ∧ (tickIn k s).trun = s.trun ∧ (tickIn k s).cmp = s.cmp ∧
    (tickIn k s).cs = s.cs ∧ (tickIn k s).ieSaveI = s.ieSaveI ∧ (tickIn k s).mseqSave = s.mseqSave ∧
    (tickIn k s).program = s.program ∧ (tickIn k s).sched.arrivals = s.sched.arrivals ∧
    (tickIn k s).sched.idles = s.sched.idles ∧
    (tickIn k s).sched.arrivalsOnward = s.sched.arrivalsOnward ∧ (tickIn k s).sched.idlesOnward = s.sched.idlesOnward := by
  have action : ∀ t, scanAction k s = t → tickIn k s = t ∨ tickIn k s = { t with scan := k + 1 } := by
    intro t ht
    simp only [tickIn, advanceScan, ht]
    split <;> simp
  rcases scanAction_cases k s with h | ⟨g, d, h⟩ <;> rcases action _ h with h | h <;> rw [h] <;> simp

/-- The advance of `SCAN` (R208): by one, from the scan state of the tick, unless the tick's `SHOW` hangs. -/
theorem tickIn_scan (k : Fin 10) (s : State) :
    (tickIn k s).hung = (scanAction k s).hung ∧
    (tickIn k s).scan = if (scanAction k s).hung then (scanAction k s).scan else k + 1 := by
  unfold tickIn advanceScan
  split <;> simp_all

/-- A hung or completed tick (R208). -/
theorem tickIn_cases (k : Fin 10) (s : State) (hs : s.hung = false) :
    ((tickIn k s).hung = false ∧ (tickIn k s).scan = k + 1 ∧ (tickIn k s).ie = s.ie ∧
      ((tickIn k s).latch = s.latch ∨ (tickIn k s).latch = .asserted)) ∨
    ((tickIn k s).hung = true ∧ (tickIn k s).ie = false ∧ (tickIn k s).done = false) := by
  rcases scanAction_cases k s with h | ⟨g, d, h⟩
  · left; simp [tickIn, advanceScan, h, hs]
  · cases hc : clockGives 8 s with
    | true =>
      left
      have := showGlyph_completes (g := g) (s := { s with draws := d }) hc hs
      simp [tickIn, advanceScan, h, this]
    | false =>
      right
      have hc' : clockGives 8 (deassertLatch { s with draws := d }) = false := hc
      have := xfer_hangs (b := g) hc'
      simp [tickIn, advanceScan, h, showGlyph, this]

/-- What a run of `ISR` leaves alone (R268 to R272, R212), whether it returns or hangs. -/
@[simp] theorem runIsr_frame (s : State) :
    (runIsr s).params = s.params ∧ (runIsr s).t1 = s.t1 ∧ (runIsr s).t2 = s.t2 ∧ (runIsr s).t3 = s.t3 ∧
    (runIsr s).p1 = s.p1 ∧ (runIsr s).p2 = s.p2 ∧ (runIsr s).p3 = s.p3 ∧ (runIsr s).adct = s.adct ∧
    (runIsr s).adcp = s.adcp ∧ (runIsr s).digits = s.digits ∧ (runIsr s).results = s.results ∧
    (runIsr s).replies = s.replies ∧ (runIsr s).trun = s.trun ∧ (runIsr s).cmp = s.cmp ∧ (runIsr s).cs = s.cs ∧
    (runIsr s).program = s.program ∧ (runIsr s).sched.arrivals = s.sched.arrivals ∧
    (runIsr s).sched.idles = s.sched.idles ∧
    (runIsr s).sched.arrivalsOnward = s.sched.arrivalsOnward ∧ (runIsr s).sched.idlesOnward = s.sched.idlesOnward := by
  unfold runIsr tick
  simp only []
  split <;> simp

/-- A run of `ISR` (R241, R269): it returns with `IE`, `MSEQ` and `MAIN` restored and `SCAN` advanced by one, or it hangs. -/
theorem runIsr_cases (s : State) (hs : s.hung = false) :
    ((runIsr s).hung = false ∧ (runIsr s).ctx = .main ∧ (runIsr s).ie = s.ie ∧ (runIsr s).mseq = s.mseq ∧
      (runIsr s).scan = s.scan + 1 ∧ (runIsr s).tickPend = false ∧
      ((runIsr s).latch = s.latch ∨ (runIsr s).latch = .asserted)) ∨
    ((runIsr s).hung = true ∧ (runIsr s).ctx = .isr ∧ (runIsr s).ie = false ∧ (runIsr s).done = false ∧
      (runIsr s).tickPend = false) := by
  have he : (irqEnter s).hung = false := by simpa using hs
  have hk : (irqEnter s).scan = s.scan := by simp
  rcases tickIn_cases s.scan (irqEnter s) he with ⟨hh, hsc, -, hl⟩ | ⟨hh, hi, hd⟩
  · left
    simp only [runIsr, tick, hk, hh]
    simp [hh, hsc]
    simpa using hl
  · right
    simp [runIsr, tick, hh, hi, hd]

/-- While the clock always runs, a tick and a run of `ISR` leave it so (R124). -/
theorem xfer_clock {b : Byte} {s : State} (h : s.sched.clock = none) : (xfer b s).sched.clock = none := by
  rw [(xfer_completes (by simp [clockGives, h])).2.2.2.2.2.2.2.2.2]
  simp [h]

theorem showGlyph_clock {g : Byte} {s : State} (h : s.sched.clock = none) : (showGlyph g s).sched.clock = none := by
  have hx : (xfer g (deassertLatch s)).sched.clock = none := xfer_clock (by simpa using h)
  unfold showGlyph
  simp only []
  split <;> simpa using hx

theorem tickIn_clock {k : Fin 10} {s : State} (h : s.sched.clock = none) : (tickIn k s).sched.clock = none := by
  have hx : (scanAction k s).sched.clock = none := by
    rcases scanAction_cases k s with e | ⟨g, d, e⟩ <;> rw [e]
    · exact h
    · exact showGlyph_clock h
  unfold tickIn advanceScan
  split <;> exact hx

theorem runIsr_clock {s : State} (h : s.sched.clock = none) : (runIsr s).sched.clock = none := by
  have hx : (tick (irqEnter s)).sched.clock = none := tickIn_clock (by simpa using h)
  unfold runIsr
  simp only []
  split <;> simpa using hx

/-- With a clock that always runs, a run of `ISR` returns (R272). -/
theorem runIsr_returns {s : State} (h : s.sched.clock = none) (hs : s.hung = false) :
    (runIsr s).hung = false ∧ (runIsr s).ctx = .main ∧ irqReady (runIsr s) = false := by
  have hk : (tick (irqEnter s)).hung = false := by
    have he : (irqEnter s).hung = false := by simpa using hs
    have hg : clockGives 8 (irqEnter s) = true := by simp [clockGives, h]
    rw [tick, (tickIn_scan _ _).1]
    rcases scanAction_cases (irqEnter s).scan (irqEnter s) with e | ⟨g, d, e⟩ <;> rw [e]
    · exact he
    · exact (showGlyph_completes (s := { irqEnter s with draws := d }) hg he).2.2.2.2.1
  rcases runIsr_cases s hs with ⟨hh, hc, -, -, -, hp, -⟩ | ⟨hh, -⟩
  · exact ⟨hh, hc, by simp [irqReady, hp]⟩
  · simp [runIsr, hk] at hh

/-! ### Boundaries -/

/-- A transitive relation that every environment event, every run of `ISR` and the end of the moves keep holds across the moves
at a boundary of a block that is not hung. -/
theorem settle_rel {R : State → State → Prop} (trans : ∀ s t u, R s t → R t u → R s u)
    (arr : ∀ a s, R s (setArrivals a s)) (ev : ∀ s, R s (compareMatch s))
    (isr : ∀ s, s.hung = false → irqReady s = true → R s (runIsr s)) {last : State → Crossing}
    (fin : ∀ s, s.hung = false → R s (last s).state) :
    ∀ l s, s.hung = false → R s (settle l last s).state := by
  intro l
  induction l with
  | nil => intro s hs; exact trans _ _ _ (arr [] s) (fin _ (by simpa using hs))
  | cons e r ih =>
    intro s hs
    cases e with
    | true => exact trans _ _ _ (ev s) (ih _ hs)
    | false =>
      unfold settle
      simp only []
      split
      · rename_i h
        split
        · exact trans _ _ _ (isr s hs h) (arr r _)
        · rename_i hh
          exact trans _ _ _ (isr s hs h) (ih _ (by simpa using hh))
      · exact arr r s

/-- The same across a whole boundary. -/
theorem boundary_rel {R : State → State → Prop} (refl : ∀ s, R s s) (trans : ∀ s t u, R s t → R t u → R s u)
    (arr : ∀ a s, R s (setArrivals a s)) (ev : ∀ s, R s (compareMatch s))
    (isr : ∀ s, s.hung = false → irqReady s = true → R s (runIsr s))
    (onward : ∀ o n s, s.sched.arrivalsOnward = .free n → R s (setOnward o s)) {s : State} (hs : s.hung = false) :
    R s (boundary s).state := by
  have go : ∀ s, s.hung = false → R s (letGo s).state := by
    intro s hs
    unfold letGo takeTick
    split
    · rename_i h; exact isr s hs h
    · exact refl s
  refine settle_rel trans arr ev isr ?_ _ s hs
  intro s hs
  unfold pastMoves
  split
  · exact go s hs
  · exact ev s
  · rename_i n hn
    simp only []
    split
    · exact trans _ _ _ (onward _ n s hn) (settle_rel trans arr ev isr (last := starve) (fun s _ => ev s) _ _ hs)
    · exact trans _ _ _ (onward _ n s hn) (settle_rel trans arr ev isr go _ _ hs)

/-- A starved block is one whose moves were used up. -/
theorem settle_starved {last : State → Crossing} {t : State} :
    ∀ l s, settle l last s = .starved t →
      ∃ u, last u = .starved t ∧ u.sched.arrivals = [] ∧ u.sched.arrivalsOnward = s.sched.arrivalsOnward := by
  intro l
  induction l with
  | nil => intro s h; exact ⟨_, h, by simp⟩
  | cons e r ih =>
    intro s h
    cases e with
    | true => simpa using ih _ h
    | false =>
      unfold settle at h
      simp only [] at h
      split at h
      · split at h
        · cases h
        · simpa using ih _ h
      · cases h

/-- A starved block stays starved: only compare-matches are left to come (R243). -/
theorem boundary_starved {s t : State} (h : boundary s = .starved t) :
    t.sched.arrivals = [] ∧ t.sched.arrivalsOnward = .always := by
  have stuck : ∀ {u v : State}, starve u = .starved v → u.sched.arrivals = [] → u.sched.arrivalsOnward = .always →
      v.sched.arrivals = [] ∧ v.sched.arrivalsOnward = .always := by
    intro u v e ha ho
    cases e
    simp [ha, ho]
  obtain ⟨u, hu, ha, -⟩ := settle_starved _ _ h
  unfold pastMoves at hu
  split at hu
  · cases hu
  · rename_i ho; exact stuck hu ha ho
  · simp only [] at hu
    split at hu
    · obtain ⟨v, hv, ha', ho'⟩ := settle_starved _ _ hu
      exact stuck hv ha' (by rw [ho']; simp)
    · obtain ⟨v, hv, -⟩ := settle_starved _ _ hu
      cases hv

end Sys2Proof.Machine
end

