-- ==== Sys2Proof/Laws/Steps.lean ====
section
/-! SUPPORT. What the µops, the macros and a step can do, said once: the cases of a step, and the rule that a relation every
part keeps is kept by every operation and every step. -/

namespace Sys2Proof.Machine

open Sys2Proof

/-- A µop of a block that is not hung: its effect hung, or it completed and `MAIN` captured its result (R124, R108). -/
theorem runUop_next {u : Uop} {s t : State} (h : runUop u s = .next t) :
    ∃ v, uopEffect u s = .next v ∧ ((v.hung = true ∧ t = v) ∨ (v.hung = false ∧ t = capture u v)) := by
  obtain ⟨v, hv, h | ⟨hr, hk⟩⟩ := andThen_next h
  · exact ⟨v, hv, .inl h⟩
  · cases hk; exact ⟨v, hv, .inr ⟨hr, rfl⟩⟩

/-- A µop that is no `XFER` takes no clock pulse, and none takes a choice of the environment (R241). -/
theorem uopEffect_sched {u : Uop} {s t : State} (h : uopEffect u s = .next t) :
    (∃ b k, u = .xfer b k ∧ t = xfer b s) ∨ t.sched = s.sched := by
  cases u <;> simp only [uopEffect, execCsa, execCsd, execLatd, execLata, execXfer, execCompt, execCompp, execPub, execTcfg,
    execArm, execIdle] at h
  case xfer b k => cases h; exact .inl ⟨b, k, rfl, rfl⟩
  all_goals
    right
    repeat' split at h
    all_goals cases h
    all_goals simp

/-- Nor does `MAIN`'s capture of a result. -/
@[simp] theorem capture_sched (u : Uop) (s : State) : (capture u s).sched = s.sched := by
  unfold capture
  split
  · rename_i k; cases k <;> rfl
  · rename_i c; cases c <;> rfl
  · rename_i c; cases c <;> rfl
  · rfl

/-- What a relation must satisfy to be kept by every operation: it is transitive, holds of a state and itself, and is kept by
every part an operation is made of, in a block that is not hung. -/
structure KeptByParts (R : State → State → Prop) : Prop where
  refl : ∀ s, R s s
  trans : ∀ s t u, R s t → R t u → R s u
  uop : ∀ u s t, s.hung = false → uopEffect u s = .next t → R s t
  captured : ∀ u s, s.hung = false → R s (capture u s)
  arrivals : ∀ a s, R s (setArrivals a s)
  onward : ∀ o n s, s.sched.arrivalsOnward = .free n → R s (setOnward o s)
  taken : ∀ s, R s (takeArrival s)
  idles : ∀ l s, R s (setIdles l s)
  event : ∀ s, R s (compareMatch s)
  isr : ∀ s, s.hung = false → irqReady s = true → R s (runIsr s)
  shown : ∀ g s, s.hung = false → R s (showGlyph g s)
  ticked : ∀ k s, s.hung = false → R s (tickIn k s)

variable {R : State → State → Prop}

theorem KeptByParts.runUop (K : KeptByParts R) {u : Uop} {s t : State} (hs : s.hung = false)
    (h : Machine.runUop u s = .next t) : R s t := by
  obtain ⟨v, hv, ⟨-, rfl⟩ | ⟨hr, rfl⟩⟩ := runUop_next h
  · exact K.uop _ _ _ hs hv
  · exact K.trans _ _ _ (K.uop _ _ _ hs hv) (K.captured _ _ hr)

theorem KeptByParts.boundary (K : KeptByParts R) {s : State} (hs : s.hung = false) : R s (Machine.boundary s).state :=
  boundary_rel K.refl K.trans K.arrivals K.event K.isr K.onward hs

theorem KeptByParts.runUops (K : KeptByParts R) : ∀ (us : List Uop) {s t : State}, s.hung = false →
    Machine.runUops us s = .next t → R s t := by
  intro us
  induction us with
  | nil => intro s t _ h; cases h; exact K.refl _
  | cons u rest ih =>
    intro s t hs h
    obtain ⟨v, hv, ⟨-, rfl⟩ | ⟨hr, hk⟩⟩ := andThen_next h
    · exact K.runUop hs hv
    · have hsv := K.runUop hs hv
      cases rest with
      | nil => cases hk; exact hsv
      | cons _ _ =>
        have hb := K.trans _ _ _ hsv (K.boundary hr)
        simp only [] at hk
        cases hc : Machine.boundary v with
        | starved w => rw [hc] at hk hb; cases hk; exact hb
        | goes w =>
          rw [hc] at hk hb
          simp only [afterBoundary, Crossing.state] at hk hb
          obtain ⟨w', hw, ⟨-, rfl⟩ | ⟨hr', hk'⟩⟩ := andThen_next hk
          · cases hw; exact hb
          · cases hw; exact K.trans _ _ _ hb (ih hr' hk')

/-- A relation that every part keeps is kept by every operation of the opcode table. -/
theorem KeptByParts.exec (K : KeptByParts R) {i : Instr} {s t : State} (hs : s.hung = false)
    (h : Machine.exec i s = .next t) : R s t := by
  cases i with
  | idle => exact K.uop .idle _ _ hs h
  | csa => exact K.uop .csa _ _ hs h
  | csd => exact K.uop (.csd .nothing) _ _ hs h
  | latd => exact K.uop .latd _ _ hs h
  | lata => exact K.uop .lata _ _ hs h
  | xfer b => exact K.uop (.xfer b none) _ _ hs h
  | compt => exact K.uop .compt _ _ hs h
  | compp => exact K.uop .compp _ _ hs h
  | tcfg => exact K.uop .tcfg _ _ hs h
  | arm => exact K.uop .arm _ _ hs h
  | pub k =>
    simp only [Machine.exec, execPub] at h
    split at h
    · rename_i d hd
      cases h
      exact K.uop (.pub d) s _ hs (by cases d <;> rfl)
    · cases h
  | config => exact K.runUops _ hs h
  | readpair c =>
    simp only [Machine.exec, execReadpair] at h
    split at h
    · exact K.runUops _ hs h
    · cases h
  | readtriple c =>
    simp only [Machine.exec, execReadtriple] at h
    split at h
    · exact K.runUops _ hs h
    · cases h
  | loadcal => exact K.runUops _ hs h
  | boot => exact K.runUops _ hs h
  | poll => exact K.trans _ _ _ (K.idles _ _) (K.runUops _ (by simpa using hs) h)
  | wireCfg => exact K.runUops _ hs h
  | wirePair88 d0 d1 d2 d3 => exact K.runUops _ hs h
  | wirePair8A d0 d1 d2 d3 => exact K.runUops _ hs h
  | wirePair8E d0 d1 d2 d3 => exact K.runUops _ hs h
  | wireTriFA d0 d1 d2 => exact K.runUops _ hs h
  | wireTriFB d0 d1 d2 => exact K.runUops _ hs h
  | showg g => cases h; exact K.shown _ _ hs
  | wireGlyph g => cases h; exact K.shown _ _ hs
  | tick => cases h; exact K.ticked _ _ hs
  | scan0 => cases h; exact K.ticked _ _ hs
  | scan1 => cases h; exact K.ticked _ _ hs
  | scan2 => cases h; exact K.ticked _ _ hs
  | scan3 => cases h; exact K.ticked _ _ hs
  | scan4 => cases h; exact K.ticked _ _ hs
  | scan5 => cases h; exact K.ticked _ _ hs
  | scan6 => cases h; exact K.ticked _ _ hs
  | scan7 => cases h; exact K.ticked _ _ hs
  | scan8 => cases h; exact K.ticked _ _ hs
  | scan9 => cases h; exact K.ticked _ _ hs

/-- The cases of a move of the block that goes on: it is hung and stays, a run of `ISR`, a placed operation, or the context's
own move (R241). -/
theorem blockMove_cases {s t : State} (h : blockMove s = .next t) :
    (s.hung = true ∧ t = s) ∨
    (s.hung = false ∧ irqReady s = true ∧ t = runIsr s) ∨
    (s.hung = false ∧ irqReady s = false ∧ ∃ i rest, fetched s = .ok i rest ∧ exec i (setBytes rest s) = .next t) ∨
    (s.hung = false ∧ irqReady s = false ∧ s.program.bytes = [] ∧ s.ctx = .main ∧ mainUop s = .next t) ∨
    (s.hung = false ∧ irqReady s = false ∧ s.program.bytes = [] ∧ s.ctx = .isr ∧ t = irqReturn s) := by
  unfold blockMove at h
  split at h
  · rename_i hh; cases h; exact .inl ⟨hh, rfl⟩
  · rename_i hh
    have hh : s.hung = false := by simpa using hh
    right
    split at h
    · rename_i hr; cases h; exact .inl ⟨hh, hr, rfl⟩
    · rename_i hr
      have hr : irqReady s = false := by simpa using hr
      right
      unfold runNext at h
      split at h
      · rename_i hb
        right
        unfold ownMove at h
        split at h
        · rename_i hc; exact .inl ⟨hh, hr, hb, hc, h⟩
        · rename_i hc; cases h; exact .inr ⟨hh, hr, hb, hc, rfl⟩
      · left
        split at h
        · rename_i i rest hf; exact ⟨hh, hr, i, rest, hf, h⟩
        · cases h

/-- The cases of a step that goes on (R241): a compare-match event, or a move of the block. -/
theorem step_cases {s t : State} (h : step s = .next t) :
    (s.sched.nextArrival = true ∧ t = compareMatch (takeArrival s)) ∨
    (s.sched.nextArrival = false ∧ blockMove (takeArrival s) = .next t) := by
  unfold step at h
  split at h
  · rename_i ha; cases h; exact .inl ⟨ha, rfl⟩
  · rename_i ha; exact .inr ⟨by simpa using ha, h⟩

/-- A relation that every part, the advance of `MSEQ`, the return and the reading of placed bytes keep is kept by every move of
the block. -/
theorem KeptByParts.blockMove (K : KeptByParts R) (adv : ∀ s, s.hung = false → R s (advanceMseq s))
    (ret : ∀ s, s.hung = false → s.ctx = .isr → R s (irqReturn s)) (bytes : ∀ r s, R s (setBytes r s))
    {s t : State} (h : Machine.blockMove s = .next t) : R s t := by
  obtain ⟨-, rfl⟩ | ⟨hh, hr, rfl⟩ | ⟨hh, -, i, rest, -, he⟩ | ⟨hh, -, -, -, hm⟩ | ⟨hh, -, -, hc, rfl⟩ :=
    blockMove_cases h
  · exact K.refl _
  · exact K.isr _ hh hr
  · exact K.trans _ _ _ (bytes rest s) (K.exec (by simpa using hh) he)
  · obtain ⟨v, hv, ⟨-, rfl⟩ | ⟨hr', hk⟩⟩ := andThen_next hm
    · exact K.runUop hh hv
    · cases hk; exact K.trans _ _ _ (K.runUop hh hv) (adv _ hr')
  · exact ret _ hh hc

/-- The same for every step. -/
theorem KeptByParts.step (K : KeptByParts R) (adv : ∀ s, s.hung = false → R s (advanceMseq s))
    (ret : ∀ s, s.hung = false → s.ctx = .isr → R s (irqReturn s)) (bytes : ∀ r s, R s (setBytes r s))
    {s t : State} (h : Machine.step s = .next t) : R s t := by
  obtain ⟨-, rfl⟩ | ⟨-, hb⟩ := step_cases h
  · exact K.trans _ _ _ (K.taken s) (K.event _)
  · exact K.trans _ _ _ (K.taken s) (K.blockMove adv ret bytes hb)

end Sys2Proof.Machine
end

