-- ==== Sys2Proof/Laws/Runs.lean ====
section
/-! SUPPORT. Runs of µops: what one µop does when the clock runs, and how a list of µops goes on from one to the next when
nothing disturbs it, or when the interrupt system is disabled. -/

namespace Sys2Proof.Machine

open Sys2Proof

/-! ### The clock -/

/-- A clock that gives `m` pulses gives fewer. -/
theorem clockGives_mono {n m : Nat} {s : State} (h : clockGives m s = true) (hn : n ≤ m) : clockGives n s = true := by
  unfold clockGives at *
  split
  · rfl
  · rename_i k hk
    rw [hk] at h
    simp only [decide_eq_true_eq] at *
    omega

/-- After `n` pulses, a clock that gave `n + m` gives `m`. -/
theorem clockGives_after {n m : Nat} {s t : State} (h : clockGives (n + m) s = true) (ht : t.sched = clockAfter n s) :
    clockGives m t = true := by
  unfold clockGives at *
  rw [ht]
  cases hk : s.sched.clock with
  | none => simp [clockAfter, hk]
  | some k =>
    rw [hk] at h
    simp only [clockAfter, hk, Option.map_some, decide_eq_true_eq] at *
    omega

/-- Pulses add up. -/
theorem clockAfter_add {n m : Nat} {s t : State} (ht : t.sched = clockAfter n s) : clockAfter m t = clockAfter (n + m) s := by
  unfold clockAfter at *
  rw [ht]
  simp [Nat.sub_sub, Function.comp_def]

/-! ### One µop -/

/-- A completed `XFER` as one update of the state (R121). -/
theorem xfer_eq {b : Byte} {s : State} (h : clockGives 8 s = true) :
    xfer b s = { s with
      sr := nextReply s, cnt := 8, done := true, dsr := b, ieSaveX := s.ie, draws := s.draws + 1
      env := if s.cs = .asserted then s.env ++ [b] else s.env
      hist := s.hist ++ [.xfer b (nextReply s)]
      sched := clockAfter 8 s } := by
  unfold xfer
  rw [if_pos h]
  rfl

/-- The µop `XFER b` when the clock runs, with what `MAIN` keeps. -/
theorem runUop_xfer {b : Byte} {k : Option Slot} {s : State} (hs : s.hung = false) (h : clockGives 8 s = true) :
    runUop (.xfer b k) s = .next (capture (.xfer b k) (xfer b s)) := by
  have hh : (xfer b s).hung = false := by rw [(xfer_completes h).2.2.2.2.2.2.1, hs]
  exact andThen_of_running hh

/-- The µop `CSA` from a deasserted line. -/
theorem runUop_csa {s : State} (hs : s.hung = false) (h : s.cs = .deasserted) : runUop .csa s = .next (assertCs s) := by
  have hh : (assertCs s).hung = false := by simpa using hs
  simp only [runUop, uopEffect, execCsa, h]
  exact andThen_of_running hh

/-- The µop `CSD` from an asserted line, with the assembly of the frame's results. -/
theorem runUop_csd {d : Dest} {s : State} (hs : s.hung = false) (h : s.cs = .asserted) :
    runUop (.csd d) s = .next (capture (.csd d) (deassertCs s)) := by
  have hh : (deassertCs s).hung = false := by simpa using hs
  simp only [runUop, uopEffect, execCsd, h]
  exact andThen_of_running hh

/-- A digit's selector selects it (R237). -/
@[simp] theorem digitOf_selectorByte (k : Digit) : digitOf (selectorByte k) = some k := by
  cases k <;> rfl

/-- The µop `PUB k`. -/
theorem runUop_pub {k : Digit} {s : State} (hs : s.hung = false) : runUop (.pub k) s = .next (publish k s) := by
  have hh : (publish k s).hung = false := by simpa using hs
  simp only [runUop, uopEffect, execPub, digitOf_selectorByte]
  exact andThen_of_running hh

/-! ### From one µop to the next -/

/-- With nothing to interleave, a boundary changes nothing. -/
theorem boundary_undisturbed {s : State} (h : Undisturbed s) : boundary s = .goes s := by
  have e : setArrivals [] s = s := by rw [← h.1.1]; rfl
  simp [boundary, h.1.1, settle, e, pastMoves, h.1.2, letGo, takeTick, h.2]

/-- Where the environment lets macros go on (R243), a boundary ends, and so will the next one. -/
theorem boundary_goes {s : State} (h : BoundariesEnd s) (hs : s.hung = false) :
    ∃ t, boundary s = .goes t ∧ BoundariesEnd t := by
  have across := fun {last} => settle_rel (R := fun a b => BoundariesEnd a → BoundariesEnd b) (last := last)
    (fun _ _ _ p q => q ∘ p) (by simp [BoundariesEnd]) (by simp [BoundariesEnd]) (by simp [BoundariesEnd])
  have go : ∀ v, v.hung = false → BoundariesEnd v → BoundariesEnd (letGo v).state := by
    intro v _ hv
    unfold letGo takeTick
    split
    · simpa [BoundariesEnd, Crossing.state] using hv
    · exact hv
  have kept : BoundariesEnd (boundary s).state := by
    refine across (fun v hh hv => ?_) _ s hs h
    unfold pastMoves
    cases ho : v.sched.arrivalsOnward with
    | never => exact go v hh hv
    | always => simp [BoundariesEnd, ho] at hv
    | free n =>
      simp only [BoundariesEnd, ho] at hv
      simp only [hv n (Nat.le_refl n), Bool.false_eq_true, if_false]
      exact across go _ _ hh (fun k hk => hv k (by omega))
  cases hb : boundary s with
  | goes t => exact ⟨t, rfl, by simpa [hb, Crossing.state] using kept⟩
  | starved t => simp [hb, Crossing.state, BoundariesEnd, (boundary_starved hb).2] at kept

/-- A µop that completes in a state nothing disturbs is followed by the rest of the list. -/
theorem runUops_cons {u : Uop} {rest : List Uop} {s t : State} (hu : runUop u s = .next t) (hh : t.hung = false)
    (ht : Undisturbed t) : runUops (u :: rest) s = runUops rest t := by
  rw [runUops, hu, andThen_of_running hh]
  cases rest with
  | nil => rfl
  | cons v r => simp [boundary_undisturbed ht, afterBoundary, hh]

end Sys2Proof.Machine
end

