-- ==== Sys2Proof/Laws/Environment.lean ====
section
/-! SUPPORT. The environment's choices (45_main_sequence.md R241): what taking one leaves, when it changes nothing, and that
fairness (R243) is a premise and nothing the step gives: an environment may idle for ever, never let the block move, or let it
take ticks only; one whose listed choices end is fair. -/

namespace Sys2Proof.Machine

open Sys2Proof

/-! ### Taking a choice -/

@[simp] theorem afterArrival_frame (e : Schedule) :
    e.afterArrival.clock = e.clock ∧ e.afterArrival.idles = e.idles ∧ e.afterArrival.idlesOnward = e.idlesOnward := by
  unfold Schedule.afterArrival
  split <;> simp

@[simp] theorem afterIdle_frame (e : Schedule) :
    e.afterIdle.clock = e.clock ∧ e.afterIdle.arrivals = e.arrivals ∧
    e.afterIdle.arrivalsOnward = e.arrivalsOnward := by
  unfold Schedule.afterIdle
  split <;> simp

/-- A choice leaves "no more compare-matches past the list" as it is. -/
theorem afterArrival_onward {e : Schedule} (h : e.arrivalsOnward = .never) : e.afterArrival.arrivalsOnward = .never := by
  unfold Schedule.afterArrival
  split <;> simp [h, Onward.rest]

/-- Whether a compare-match comes next is decided by the arrivals alone. -/
theorem nextArrival_congr {e f : Schedule} (h : e.arrivals = f.arrivals) (k : e.arrivalsOnward = f.arrivalsOnward) :
    e.nextArrival = f.nextArrival := by
  unfold Schedule.nextArrival
  rw [h, k]

/-- Whether an `IDLE` comes next is decided by the idling choices alone. -/
theorem nextIdle_congr {e f : Schedule} (h : e.idles = f.idles) (k : e.idlesOnward = f.idlesOnward) :
    e.nextIdle = f.nextIdle := by
  unfold Schedule.nextIdle
  rw [h, k]

/-- Past the end of the arrivals, with none or only compare-matches to come, a choice changes nothing. -/
theorem afterArrival_settled {e : Schedule} (h : e.arrivals = []) (k : e.arrivalsOnward.rest = e.arrivalsOnward) :
    e.afterArrival = e := by
  cases e
  cases h
  simp only [Schedule.afterArrival]
  simp only [] at k
  rw [k]

/-- Past the end of the idling choices, with `POLL0` or `IDLE` for ever to come, a choice changes nothing. -/
theorem afterIdle_settled {e : Schedule} (h : e.idles = []) (k : e.idlesOnward.rest = e.idlesOnward) :
    e.afterIdle = e := by
  cases e
  cases h
  simp only [Schedule.afterIdle]
  simp only [] at k
  rw [k]

/-- With no compare-match to come, a step is a move of the block. -/
theorem step_of_noArrivals {s : State} (h : NoArrivals s) : step s = blockMove s := by
  have hn : s.sched.nextArrival = false := by simp [Schedule.nextArrival, Onward.choice, h.1, h.2]
  have ht : takeArrival s = s := by
    unfold takeArrival
    rw [afterArrival_settled h.1 (by rw [h.2]; rfl)]
  unfold step
  rw [hn, ht]
  rfl

/-! ### Fairness is not given -/

/-- A state that a step maps to itself is where every run from it ends. -/
theorem run_of_fixed {M : Host.Core} {s : M.State} (h : M.step s = .next s) (n : Nat) : M.run n s = .next s := by
  induction n with
  | zero => rfl
  | succ n ih => simp only [Host.Core.run, h, ih]

theorem reaches_refl (s : State) : Reaches s s := ⟨0, rfl⟩

theorem reaches_of_step {s t u : State} (h : step s = .next t) (k : Reaches t u) : Reaches s u := by
  obtain ⟨n, hn⟩ := k
  refine ⟨n + 1, ?_⟩
  have h' : Sys2Proof.core.step s = .next t := h
  simp only [Host.Core.run, h']
  exact hn

theorem reaches_trans {s t u : State} (h : Reaches s t) (k : Reaches t u) : Reaches s u := by
  obtain ⟨n, hn⟩ := h
  induction n generalizing s with
  | zero => cases hn; exact k
  | succ n ih =>
    simp only [Host.Core.run] at hn
    split at hn
    · rename_i v hv; exact reaches_of_step hv (ih hn)
    · cases hn
    · cases hn

/-- What every step keeps holds of every state the machine comes to. -/
theorem reaches_kept {P : State → Prop} (h : ∀ s t, P s → step s = .next t → P t) {s t : State} (hs : P s)
    (k : Reaches s t) : P t := by
  obtain ⟨n, hn⟩ := k
  induction n generalizing s with
  | zero => cases hn; exact hs
  | succ n ih =>
    simp only [Host.Core.run] at hn
    split at hn
    · rename_i v hv; exact ih (h s v hs hv) hn
    · cases hn
    · cases hn

/-- `MAIN` idles for ever if the environment chooses so (R239, R243). -/
theorem idles_for_ever {s : State} (hh : s.hung = false) (hr : irqReady s = false) (ha : NoArrivals s)
    (hp : s.program.bytes = []) (hc : s.ctx = .main) (hm : s.mseq = .idle) (hi : s.sched.idles = [])
    (ho : s.sched.idlesOnward = .always) (n : Nat) : (Sys2Proof.core.run n s : Result) = .next s := by
  refine run_of_fixed (M := Sys2Proof.core) ?_ n
  change step s = .next s
  have hx : s.sched.nextIdle = true := by simp [Schedule.nextIdle, Onward.choice, hi, ho]
  have hadv : advanceMseq s = s := by
    unfold advanceMseq
    rw [hx, afterIdle_settled hi (by rw [ho]; rfl), hm]
    cases s
    cases hm
    rfl
  rw [step_of_noArrivals ha]
  simp [blockMove, runNext, ownMove, mainUop, mseqUop, runUop, uopEffect, execIdle, capture, andThen, hh, hr, hp, hc, hm,
    hadv]

/-- The block never moves if only compare-matches come (R241, R243); with one pending they change nothing. -/
theorem starved_for_ever {s : State} (ha : s.sched.arrivals = []) (ho : s.sched.arrivalsOnward = .always)
    (hp : s.tickPend = true) (n : Nat) : (Sys2Proof.core.run n s : Result) = .next s := by
  refine run_of_fixed (M := Sys2Proof.core) ?_ n
  change step s = .next s
  have hn : s.sched.nextArrival = true := by simp [Schedule.nextArrival, Onward.choice, ha, ho]
  have ht : takeArrival s = s := by
    unfold takeArrival
    rw [afterArrival_settled ha (by rw [ho]; rfl)]
  have hc : compareMatch s = s := by
    unfold compareMatch
    rw [hp, Bool.or_true]
    cases s
    cases hp
    rfl
  simp [step, hn, ht, hc]

/-- A starved block never moves again: of a placed macro that a boundary ends so (`boundary_starved`) the rest never runs. -/
theorem starved_never_moves {s t : State} (ha : s.sched.arrivals = []) (ho : s.sched.arrivalsOnward = .always)
    (h : Reaches s t) : t = { s with tickPend := t.tickPend } := by
  refine reaches_kept (P := fun u => u = { s with tickPend := u.tickPend }) ?_ rfl h
  intro u v hu hv
  have hs : u.sched = s.sched := by rw [hu]
  have ht : takeArrival u = u := by
    unfold takeArrival
    rw [hs, afterArrival_settled ha (by rw [ho]; rfl), ← hs]
  obtain ⟨-, rfl⟩ | ⟨hf, -⟩ := step_cases hv
  · rw [ht]
    unfold compareMatch
    rw [hu]
  · simp [Schedule.nextArrival, Onward.choice, hs, ha, ho] at hf

/-- Neither environment is fair. -/
theorem not_fair_of_idling {s : State} (hi : s.sched.idles = []) (ho : s.sched.idlesOnward = .always) : ¬ Fair s := by
  intro h
  obtain ⟨m, -, hm⟩ := h.idling_ends 0
  have e := afterIdle_settled hi (by rw [ho]; rfl)
  rw [Function.iterate_fixed e] at hm
  simp [Schedule.nextIdle, Onward.choice, hi, ho] at hm

theorem not_fair_of_starving {s : State} (ha : s.sched.arrivals = []) (ho : s.sched.arrivalsOnward = .always)
    (hh : s.hung = false) (hc : s.ctx = .main) : ¬ Fair s := by
  intro h
  obtain ⟨u, hu, -, -, hn, -⟩ := h.main_taken s (reaches_refl s) hh hc
  have k := reaches_kept (P := fun t => t.sched.arrivals = [] ∧ t.sched.arrivalsOnward = .always) ?_ ⟨ha, ho⟩ hu
  · simp [Schedule.nextArrival, Onward.choice, k.1, k.2] at hn
  · intro t v ⟨ta, to_⟩ hv
    obtain ⟨-, rfl⟩ | ⟨hf, -⟩ := step_cases hv
    · simp [Schedule.afterArrival, ta, to_, Onward.rest]
    · simp [Schedule.nextArrival, Onward.choice, ta, to_] at hf

/-- Nor is one that lets the block move only when a tick is ready, so that `MAIN` never does. -/
theorem not_fair_of_ticks_only {s : State} (hh : s.hung = false) (hc : s.ctx = .main)
    (h : ∀ u, Reaches s u → u.sched.nextArrival = false → irqReady u = true) : ¬ Fair s := by
  intro f
  obtain ⟨u, hu, -, -, hn, hr⟩ := f.main_taken s (reaches_refl s) hh hc
  simp [h u hu hn] at hr

/-- While no compare-matches come past the listed ones and the clock always runs, it stays so. -/
theorem finite_kept {s t : State} (h : s.sched.clock = none ∧ s.sched.arrivalsOnward = .never) (ht : step s = .next t) :
    t.sched.clock = none ∧ t.sched.arrivalsOnward = .never := by
  have K : KeptByParts (fun a b => a.sched.clock = none ∧ a.sched.arrivalsOnward = .never →
      b.sched.clock = none ∧ b.sched.arrivalsOnward = .never) := {
    refl := fun _ h => h
    trans := fun _ _ _ p q h => q (p h)
    uop := fun u a b _ hb h => by
      rcases uopEffect_sched hb with ⟨c, -, -, rfl⟩ | e
      · exact ⟨xfer_clock h.1, by simpa using h.2⟩
      · rw [e]; exact h
    captured := fun u a _ h => by rw [capture_sched]; exact h
    arrivals := fun _ _ h => h
    onward := fun _ _ _ hf h => by simp [h.2] at hf
    taken := fun _ h => ⟨by simpa using h.1, by simpa using afterArrival_onward h.2⟩
    idles := fun _ _ h => h
    event := fun _ h => h
    isr := fun a _ _ h => ⟨runIsr_clock h.1, by simpa using h.2⟩
    shown := fun g a _ h => ⟨showGlyph_clock h.1, by simpa using h.2⟩
    ticked := fun k a _ h => ⟨tickIn_clock h.1, by simpa using h.2⟩ }
  refine K.step ?_ (fun _ _ _ h => h) (fun _ _ h => h) ht h
  intro a _ h
  unfold advanceMseq
  simp only []
  split <;> simpa using h

/-- With listed compare-matches only, the block's next move comes; a pending tick has waited for it. -/
theorem move_comes (l : List Bool) : ∀ t : State, t.sched.arrivals = l → t.sched.arrivalsOnward = .never →
    ∃ u, Reaches t u ∧ u.sched.nextArrival = false ∧ u.sched.arrivalsOnward = .never ∧ u.hung = t.hung ∧ u.ctx = t.ctx ∧
      u.sched.clock = t.sched.clock ∧ (irqReady t = true → irqReady u = true) ∧
      u.sched.arrivals.length ≤ l.length := by
  induction l with
  | nil =>
    intro t ht ho
    exact ⟨t, reaches_refl t, by simp [Schedule.nextArrival, Onward.choice, ht, ho], ho, rfl, rfl, rfl, id, by simp [ht]⟩
  | cons b l ih =>
    intro t ht ho
    cases b with
    | false => exact ⟨t, reaches_refl t, by simp [Schedule.nextArrival, ht], ho, rfl, rfl, rfl, id, by simp [ht]⟩
    | true =>
      have hs : step t = .next (compareMatch (takeArrival t)) := by simp [step, Schedule.nextArrival, ht]
      obtain ⟨u, hu, hn, hou, hh, hc, hk, hr, hl⟩ := ih (compareMatch (takeArrival t))
        (by simp [Schedule.afterArrival, ht]) (by simp [afterArrival_onward ho])
      refine ⟨u, reaches_of_step hs hu, hn, hou, by simpa using hh, by simpa using hc, by simpa using hk, ?_, ?_⟩
      · intro h
        apply hr
        simp only [irqReady, Bool.and_eq_true] at h ⊢
        simp [h]
      · simp only [List.length_cons]; omega

/-- Then the next move that is a step of `MAIN` comes too: after the ticks that have priority over it. -/
theorem main_comes (n : Nat) : ∀ t : State, t.sched.arrivals.length = n → t.sched.clock = none →
    t.sched.arrivalsOnward = .never → t.hung = false → t.ctx = .main → ∃ u, Reaches t u ∧ MainMovesNext u := by
  induction n using Nat.strongRecOn with
  | ind n ih =>
    intro t hl hk ho hh hc
    obtain ⟨u, hu, hn, hou, huh, huc, huk, -, hul⟩ := move_comes _ t rfl ho
    cases hr : irqReady u with
    | false => exact ⟨u, hu, huh.trans hh, huc.trans hc, hn, hr⟩
    | true =>
      have hs : step u = .next (runIsr (takeArrival u)) := by
        have e : irqReady (takeArrival u) = true := hr
        simp [step, hn, blockMove, e, huh, hh]
      have hkv : (runIsr (takeArrival u)).sched.clock = none := runIsr_clock (by simp [huk, hk])
      have hov : (runIsr (takeArrival u)).sched.arrivalsOnward = .never := by simp [afterArrival_onward hou]
      obtain ⟨hhv, hcv, hrv⟩ := runIsr_returns (s := takeArrival u) (by simp [huk, hk]) (by simp [huh, hh])
      cases ha : u.sched.arrivals with
      | nil =>
        refine ⟨_, reaches_trans hu (reaches_of_step hs (reaches_refl _)), hhv, hcv, ?_, hrv⟩
        simp [Schedule.nextArrival, Onward.choice, Schedule.afterArrival, ha, hou, Onward.rest]
      | cons b r =>
        rw [ha, List.length_cons] at hul
        obtain ⟨w, hw, hm⟩ := ih r.length (by omega) _ (by simp [Schedule.afterArrival, ha]) hkv hov hhv hcv
        exact ⟨w, reaches_trans hu (reaches_of_step hs hw), hm⟩

/-- An environment whose compare-matches are the listed ones, which never withholds a pulse and whose idling ends, is fair. -/
theorem fair_of_finite {s : State} (hc : s.sched.clock = none) (ha : s.sched.arrivalsOnward = .never)
    (hi : s.sched.idlesOnward = .never) : Fair s where
  clock_runs := hc
  main_taken t ht hh hm := by
    have k := reaches_kept (fun _ _ h e => finite_kept h e) ⟨hc, ha⟩ ht
    exact main_comes _ t rfl k.1 k.2 hh hm
  tick_taken t ht hh hr := by
    have k := reaches_kept (fun _ _ h e => finite_kept h e) ⟨hc, ha⟩ ht
    obtain ⟨u, hu, hn, -, hh', -, -, hr', -⟩ := move_comes _ t rfl k.2
    exact ⟨u, hu, hh'.trans hh, hn, hr' hr⟩
  idling_ends n := by
    have spent : ∀ l : List Bool, ∀ e : Schedule, e.idles = l → e.idlesOnward = .never →
        ∀ k, (Schedule.afterIdle^[l.length + k] e).nextIdle = false := by
      intro l
      induction l with
      | nil =>
        intro e hl ho k
        rw [List.length_nil, Nat.zero_add, Function.iterate_fixed (afterIdle_settled hl (by rw [ho]; rfl))]
        simp [Schedule.nextIdle, Onward.choice, hl, ho]
      | cons b r ih =>
        intro e hl ho k
        rw [List.length_cons, Nat.add_right_comm, Function.iterate_succ_apply]
        exact ih _ (by simp [Schedule.afterIdle, hl]) (by simp [Schedule.afterIdle, hl, ho]) k
    exact ⟨s.sched.idles.length + n, by omega, spent _ _ rfl hi n⟩

end Sys2Proof.Machine
end

