-- ==== Sys2Proof/Laws/PerInstr.lean ====
section
/-! SUPPORT. One lemma per constructor of `Instr` about the instruction as text: how many bytes its row has
(30_encoding.md R101: one byte for `U0`, two for `U1`; R90: 2, 5, 4 and 1 for the wire frames; R100: one value of `SCAN`). -/

namespace Sys2Proof.Laws

open Sys2Proof

/-- How many bytes a row of spec/opcode_table.json has: its format's length (R101, R90, R100). -/
def rowBytes : Instr → Nat
  | .idle | .csa | .csd | .latd | .lata | .config | .loadcal | .compt | .compp | .tick | .tcfg | .arm | .poll | .boot => 1
  | .xfer _ | .readpair _ | .readtriple _ | .pub _ | .showg _ => 2
  | .wireCfg => 2
  | .wirePair88 _ _ _ _ | .wirePair8A _ _ _ _ | .wirePair8E _ _ _ _ => 5
  | .wireTriFA _ _ _ | .wireTriFB _ _ _ => 4
  | .wireGlyph _ => 1
  | .scan0 | .scan1 | .scan2 | .scan3 | .scan4 | .scan5 | .scan6 | .scan7 | .scan8 | .scan9 => 1

/-- An operation's encoding has its row's length. -/
def RowLength.Statement (i : Instr) : Prop := (encode i).length = rowBytes i

theorem RowLength.idle : RowLength.Statement .idle := rfl
theorem RowLength.csa : RowLength.Statement .csa := rfl
theorem RowLength.csd : RowLength.Statement .csd := rfl
theorem RowLength.latd : RowLength.Statement .latd := rfl
theorem RowLength.lata : RowLength.Statement .lata := rfl
theorem RowLength.xfer (b : Byte) : RowLength.Statement (.xfer b) := rfl
theorem RowLength.config : RowLength.Statement .config := rfl
theorem RowLength.readpair (b : Byte) : RowLength.Statement (.readpair b) := rfl
theorem RowLength.readtriple (b : Byte) : RowLength.Statement (.readtriple b) := rfl
theorem RowLength.loadcal : RowLength.Statement .loadcal := rfl
theorem RowLength.compt : RowLength.Statement .compt := rfl
theorem RowLength.compp : RowLength.Statement .compp := rfl
theorem RowLength.pub (b : Byte) : RowLength.Statement (.pub b) := rfl
theorem RowLength.showg (b : Byte) : RowLength.Statement (.showg b) := rfl
theorem RowLength.tick : RowLength.Statement .tick := rfl
theorem RowLength.tcfg : RowLength.Statement .tcfg := rfl
theorem RowLength.arm : RowLength.Statement .arm := rfl
theorem RowLength.poll : RowLength.Statement .poll := rfl
theorem RowLength.boot : RowLength.Statement .boot := rfl
theorem RowLength.wireCfg : RowLength.Statement .wireCfg := rfl
theorem RowLength.wirePair88 (d0 d1 d2 d3 : Byte) : RowLength.Statement (.wirePair88 d0 d1 d2 d3) := rfl
theorem RowLength.wirePair8A (d0 d1 d2 d3 : Byte) : RowLength.Statement (.wirePair8A d0 d1 d2 d3) := rfl
theorem RowLength.wirePair8E (d0 d1 d2 d3 : Byte) : RowLength.Statement (.wirePair8E d0 d1 d2 d3) := rfl
theorem RowLength.wireTriFA (d0 d1 d2 : Byte) : RowLength.Statement (.wireTriFA d0 d1 d2) := rfl
theorem RowLength.wireTriFB (d0 d1 d2 : Byte) : RowLength.Statement (.wireTriFB d0 d1 d2) := rfl
theorem RowLength.wireGlyph (b : Byte) : RowLength.Statement (.wireGlyph b) := rfl
theorem RowLength.scan0 : RowLength.Statement .scan0 := rfl
theorem RowLength.scan1 : RowLength.Statement .scan1 := rfl
theorem RowLength.scan2 : RowLength.Statement .scan2 := rfl
theorem RowLength.scan3 : RowLength.Statement .scan3 := rfl
theorem RowLength.scan4 : RowLength.Statement .scan4 := rfl
theorem RowLength.scan5 : RowLength.Statement .scan5 := rfl
theorem RowLength.scan6 : RowLength.Statement .scan6 := rfl
theorem RowLength.scan7 : RowLength.Statement .scan7 := rfl
theorem RowLength.scan8 : RowLength.Statement .scan8 := rfl
theorem RowLength.scan9 : RowLength.Statement .scan9 := rfl

end Sys2Proof.Laws
end

