-- ==== Sys2Proof/Tests/Slice0.lean ====
section
/-! SUPPORT. The model's own tests. Expected values come from 95_test_vectors.md, from the spec's tables, or are written out
from its encodings; the vector or rule stands in each comment. A value the spec leaves free appears as the free value. -/

namespace Sys2Proof.Tests

open Sys2Proof Sys2Proof.Machine

/-- What an outcome that goes on holds. -/
def seen {α : Type} (f : State → α) (o : Host.Outcome State Fault Refusal) : Option α :=
  match o with
  | .next t => some (f t)
  | _ => none

/-- The refusal an outcome stops with, if any. -/
def refusedBy (o : Host.Outcome State Fault Refusal) : Option Refusal :=
  match o with
  | .refused r => some r
  | _ => none

/-! ### States to test on -/

/-- A transfer in an open `0xFA` envelope, the interrupt enabled (X1). -/
def selected : State := { State.reset with cs := .asserted, env := [0xFA#8], ie := true }

/-- A state after boot, the simulator's coefficients loaded (95_test_vectors.md P1, end state). -/
def booted : State := { State.reset with
  t1 := ⟨27504#16, true⟩
  t2 := ⟨26435#16, true⟩
  t3 := ⟨0xFC18#16, true⟩
  p1 := ⟨0x8E7D#16, true⟩
  p2 := ⟨0xD643#16, true⟩
  p3 := ⟨3024#16, true⟩
  cmp := 124
  trun := true
  ie := true
  mseq := .poll 0 }

/-- The same with a temperature sample. -/
def sampledT (v : Sample) : State := { booted with adct := ⟨v, true⟩ }

/-- The same with a pressure sample. -/
def sampledP (v : Sample) : State := { booted with adcp := ⟨v, true⟩ }

/-- The scanner's test state (95_test_vectors.md section 5): the digits `2 5 0 4 5 0`, in scan state `k`. -/
def showing (k : Fin 10) : State := { booted with digits := ⟨2#8, 5#8, 0#8, 4#8, 5#8, 0#8⟩, scan := k }

/-- A state with other timer parameters (section 6, I7 to I13). -/
def timed (clk hz w : Nat) : State :=
  { State.reset with params := { Params.default with timerClkHz := clk, scanHz := hz, cmpW := w } }

/-- A state whose clock gives `n` more pulses. -/
def clocked (n : Nat) (s : State) : State := { s with sched := { s.sched with clock := some n } }

/-- A state in which the interrupt is ready (I4). -/
def ready : State := { showing 4 with tickPend := true, mseq := .poll 7 }

/-! ### Well-formedness (R102) -/

theorem test_readpair_0x90_is_ill_formed : (Instr.readpair 0x90#8).wf = false := by decide
theorem test_readtriple_0x00_is_ill_formed : (Instr.readtriple 0x00#8).wf = false := by decide
theorem test_pub_6_is_ill_formed : (Instr.pub 6#8).wf = false := by decide
theorem test_listed_operands_are_well_formed :
    (Instr.readpair 0x8E#8).wf = true ∧ (Instr.readtriple 0xFB#8).wf = true ∧ (Instr.pub 5#8).wf = true := by decide

/-! ### Decoding: each row's word, written out from 30_encoding.md R101, R91 to R94, R100 -/

theorem test_decode_transport_words :
    decodeTableWord 8 0b00000000 = some .idle ∧ decodeTableWord 8 0b00000001 = some .csa ∧
    decodeTableWord 8 0b00000010 = some .csd ∧ decodeTableWord 8 0b00000011 = some .latd ∧
    decodeTableWord 8 0b00000100 = some .lata ∧ decodeTableWord 16 0b0000010110110001 = some (.xfer 0b10110001#8) := by
  decide

theorem test_decode_sensor_words :
    decodeTableWord 8 0b00010000 = some .config ∧ decodeTableWord 16 0b0001000110001000 = some (.readpair 0x88#8) ∧
    decodeTableWord 16 0b0001001011111011 = some (.readtriple 0xFB#8) ∧ decodeTableWord 8 0b00010011 = some .loadcal := by
  decide

theorem test_decode_compensation_and_publication_words :
    decodeTableWord 8 0b00100000 = some .compt ∧ decodeTableWord 8 0b00100001 = some .compp ∧
    decodeTableWord 16 0b0010001000000101 = some (.pub 5#8) := by decide

theorem test_decode_display_and_system_words :
    decodeTableWord 16 0b0011000001011011 = some (.showg 0x5B#8) ∧ decodeTableWord 8 0b00110001 = some .tick ∧
    decodeTableWord 8 0b01000000 = some .tcfg ∧ decodeTableWord 8 0b01000001 = some .arm ∧
    decodeTableWord 8 0b01000010 = some .poll ∧ decodeTableWord 8 0b01000011 = some .boot := by decide

theorem test_decode_wire_words :
    decodeTableWord 16 0b0111010001000011 = some .wireCfg ∧
    decodeTableWord 40 0b1000100000000001000000100000001100000100 = some (.wirePair88 1#8 2#8 3#8 4#8) ∧
    decodeTableWord 40 0b1000101000000001000000100000001100000100 = some (.wirePair8A 1#8 2#8 3#8 4#8) ∧
    decodeTableWord 40 0b1000111000000001000000100000001100000100 = some (.wirePair8E 1#8 2#8 3#8 4#8) ∧
    decodeTableWord 32 0b11111010000000010000001000000011 = some (.wireTriFA 1#8 2#8 3#8) ∧
    decodeTableWord 32 0b11111011000000010000001000000011 = some (.wireTriFB 1#8 2#8 3#8) ∧
    decodeTableWord 8 0b01011011 = some (.wireGlyph 0x5B#8) := by decide

theorem test_decode_scan_words :
    (List.range 10).map (decodeTableWord 4) =
      [some .scan0, some .scan1, some .scan2, some .scan3, some .scan4, some .scan5, some .scan6, some .scan7, some .scan8,
       some .scan9] ∧
    (List.range 5).map (fun n => decodeTableWord 8 (n + 5)) =
      [some .scan5, some .scan6, some .scan7, some .scan8, some .scan9] ∧
    decodeTableWord 4 0b1010 = none ∧ decodeTableWord 4 0b1111 = none := by decide

/-- The boot program's µop stream begins so (95_test_vectors.md P1). -/
theorem test_decode_code_stream :
    decode .code [0x01#8, 0x05#8, 0x88#8, 0x05#8] = .ok .csa [0x05#8, 0x88#8, 0x05#8] ∧
    decode .code [0x05#8, 0x88#8, 0x05#8] = .ok (.xfer 0x88#8) [0x05#8] ∧
    decode .code [0x05#8] = .reject .missingOperand ∧ decode .code [] = .reject .empty := by decide

/-- A pair frame cut short, and `74` followed by another byte than `43`, are no frame of the block (R91, R92). -/
theorem test_decode_broken_frames :
    decode .sensorFrame [0x88#8, 0#8, 0#8, 0#8] = .reject .unknownFrame ∧
    decode .sensorFrame [0x74#8, 0x44#8] = .reject .unknownFrame := by decide

/-! ### Assembly (95_test_vectors.md 3.3, 3.4) -/

theorem test_pair_assembly :
    [(0x70#8, 0x6B#8), (0x43#8, 0x67#8), (0x18#8, 0xFC#8), (0x7D#8, 0x8E#8), (0x00#8, 0x80#8), (0xFF#8, 0x7F#8),
      (0xFF#8, 0xFF#8), (0x34#8, 0x12#8)].map (fun r => (word16 r.1 r.2).toInt) =
      [27504, 26435, -1000, -29059, -32768, 32767, -1, 4660] := by decide

theorem test_sample_assembly :
    (sample20 0x12#8 0x34#8 0x50#8).toNat = 0x12345 ∧ (sample20 0x12#8 0x34#8 0x5F#8).toNat = 0x12345 ∧
    (sample20 0xFF#8 0xFF#8 0xFF#8).toNat = 1048575 ∧ (sample20 0x00#8 0x00#8 0x0F#8).toNat = 0 ∧
    (sample20 0x00#8 0x00#8 0x10#8).toNat = 1 ∧ (sample20 0x80#8 0x00#8 0x00#8).toNat = 524288 ∧
    (sample20 0x7E#8 0xED#8 0x00#8).toNat = 519888 ∧ (sample20 0x65#8 0x5A#8 0xC0#8).toNat = 415148 := by decide

/-! ### Transport (95_test_vectors.md 3.1, 3.2) -/

/-- X1: the reply is `REG(0xFA, 0)`. -/
theorem test_xfer_in_an_envelope :
    seen (fun t => (t.sr, t.env, t.dsr, t.cnt, t.done, t.ie, t.hist)) (exec (.xfer 0x00#8) selected) =
      some (Config.sensorReg 0 0xFA#8 0, [0xFA#8, 0x00#8], 0x00#8, 8, true, true,
        [.xfer 0x00#8 (Config.sensorReg 0 0xFA#8 0)]) := rfl

/-- X6: the environment withholds pulse 3. -/
theorem test_xfer_hangs :
    seen (fun t => (t.hung, t.ie, t.cnt, t.done, t.cs)) (exec (.xfer 0x5B#8) (clocked 3 selected)) =
      some (true, false, 3, false, .asserted) := by decide

/-- 3.1, bit level: `0x88` and `0x70` on the line, pulse 0 to pulse 7, in either order. -/
theorem test_line_bits :
    allPulses.map (lineBit .msbFirst 0x88#8) = [true, false, false, false, true, false, false, false] ∧
    allPulses.map (lineBit .msbFirst 0x70#8) = [false, true, true, true, false, false, false, false] ∧
    allPulses.map (lineBit .lsbFirst 0x88#8) = [false, false, false, true, false, false, false, true] ∧
    allPulses.map (lineBit .lsbFirst 0x70#8) = [false, false, false, false, true, true, true, false] := by decide

/-- After 3 pulses, most significant bit first, `DSR` has taken the upper 3 bits of the byte sent, at its low end (R68). -/
theorem test_three_pulses_of_the_display_register :
    (pulses 3 0xA0#8 0x00#8 { State.reset with dsr := 0xFF#8 }).dsr = 0xFD#8 ∧
    (pulses 3 0x05#8 0x00#8 { State.reset with dsr := 0xFF#8, params := { Params.default with bitOrder := .lsbFirst } }).dsr =
      0xBF#8 := by decide

/-- L1, L5. -/
theorem test_csa :
    seen (fun t => (t.cs, t.env, t.hist)) (exec .csa State.reset) = some (.asserted, [], [.cs .asserted]) ∧
    refusedBy (exec .csa selected) = some .csaWhileAsserted := by decide

/-- L2. -/
theorem test_csd :
    seen (fun t => (t.cs, t.env, t.hist)) (exec .csd { selected with env := [0x74#8, 0x43#8] }) =
      some (.deasserted, [], [.cs .deasserted]) := by decide

/-- L3. -/
theorem test_latd :
    seen (fun t => (t.latch, t.dout)) (exec .latd { State.reset with dout := 0x3F#8 }) = some (.deasserted, 0x3F#8) := by
  decide

/-- L4. -/
theorem test_lata :
    seen (fun t => (t.latch, t.dout, t.hist))
      (exec .lata { State.reset with latch := .deasserted, dsr := 0x06#8, dout := 0x3F#8 }) =
      some (.asserted, 0x06#8, [.latch .asserted, .commit 0x06#8]) := by decide

/-! ### Frames (95_test_vectors.md 3.5) -/

/-- F1. -/
theorem test_config : seen (fun t => t.hist) (exec .config State.reset) = some [
    .cs .asserted, .xfer 0x74#8 (Config.anyByte 0), .xfer 0x43#8 (Config.anyByte 1), .cs .deasserted] := rfl

/-- F2, with the replies as free values. -/
theorem test_readpair_88 :
    seen (fun t => (t.hist, t.t1, t.t2)) (exec (.readpair 0x88#8) State.reset) = some (
      [.cs .asserted, .xfer 0x88#8 (Config.anyByte 0), .xfer 0#8 (Config.sensorReg 1 0x88#8 0),
       .xfer 0#8 (Config.sensorReg 2 0x88#8 1), .xfer 0#8 (Config.sensorReg 3 0x88#8 2),
       .xfer 0#8 (Config.sensorReg 4 0x88#8 3), .cs .deasserted],
      ⟨word16 (Config.sensorReg 1 0x88#8 0) (Config.sensorReg 2 0x88#8 1), true⟩,
      ⟨word16 (Config.sensorReg 3 0x88#8 2) (Config.sensorReg 4 0x88#8 3), true⟩) := rfl

/-- F5. -/
theorem test_readpair_90 : refusedBy (exec (.readpair 0x90#8) State.reset) = some .badOperand := by
  decide

/-- F4, with the replies as free values. -/
theorem test_readtriple_FB :
    seen (fun t => (t.hist, t.adct.written, t.adcp)) (exec (.readtriple 0xFB#8) State.reset) = some (
      [.cs .asserted, .xfer 0xFB#8 (Config.anyByte 0), .xfer 0#8 (Config.sensorReg 1 0xFB#8 0),
       .xfer 0#8 (Config.sensorReg 2 0xFB#8 1), .xfer 0#8 (Config.sensorReg 3 0xFB#8 2), .cs .deasserted],
      false, ⟨sample20 (Config.sensorReg 1 0xFB#8 0) (Config.sensorReg 2 0xFB#8 1) (Config.sensorReg 3 0xFB#8 2), true⟩) := rfl

/-- S6: three envelopes, whose first bytes are `88`, `8A`, `8E` in that order. -/
theorem test_loadcal :
    seen (fun t => t.hist) (exec .loadcal State.reset) = some (pairTrace Params.default 0x88#8 0 ++
      pairTrace Params.default 0x8A#8 5 ++ pairTrace Params.default 0x8E#8 10) := rfl

/-- A foreign byte at the third place makes the later replies free (R66). -/
theorem test_wire_triple_with_a_foreign_byte :
    seen (fun t => t.adct) (exec (.wireTriFA 0#8 0x5B#8 0#8) State.reset) = some
      ⟨sample20 (Config.sensorReg 1 0xFA#8 0) (Config.sensorReg 2 0xFA#8 1) (Config.anyByte 3), true⟩ := rfl

/-- P5: a tick between `POLL5` and `POLL6`, at `SCAN = 0` with digit 2: the glyph enters the envelope, and the next dummy
transfer of `MAIN` gets a free byte; with `DUMMY` equal to the glyph it gets `REG(0xFA, 1)`. -/
theorem test_tick_in_an_envelope :
    seen (fun t => (t.env, t.dout, t.scan, t.cs))
      (step { showing 0 with cs := .asserted, env := [0xFA#8], tickPend := true, mseq := .poll 6 }) =
      some ([0xFA#8, 0x5B#8], 0x5B#8, 1, .asserted) ∧
    sensorReply Params.default [0xFA#8, 0x5B#8] 7 = Config.anyByte 7 ∧
    sensorReply { Params.default with dummy := 0x5B#8 } [0xFA#8, 0x5B#8] 7 = Config.sensorReg 7 0xFA#8 1 := ⟨rfl, rfl, rfl⟩

/-! ### Compensation (95_test_vectors.md 4) -/

/-- T-1 to T-4, T-6 to T-8. -/
theorem test_compt_in_domain :
    [519888#20, 519889#20, 440064#20, 440080#20, 524288#20, 600000#20, 761119#20].map (fun v =>
      seen (fun t => (t.results.tTens, t.results.tOnes, t.results.tTenths)) (exec .compt (sampledT v))) =
    [some (2#8, 5#8, 0#8), some (2#8, 5#8, 0#8), some (0#8, 0#8, 0#8), some (0#8, 0#8, 0#8), some (2#8, 6#8, 4#8),
     some (5#8, 0#8, 1#8), some (9#8, 9#8, 9#8)] := by decide

/-- T-5, T-9 to T-12: outside the domain, three free bytes. -/
theorem test_compt_outside_domain :
    [440063#20, 761120#20, 0#20, 1048575#20, 74565#20].map (fun v =>
      (decide (tempInDomain v 27504#16 26435#16 0xFC18#16), tempFine v 27504#16 26435#16 0xFC18#16)) =
    [(false, -13), (false, 512012), (false, -721301), (false, 960246), (false, -597505)] := by decide

/-- P-1, P-4 to P-10. -/
theorem test_compp_in_domain :
    [415148#20, 6552#20, 6555#20, 6556#20, 6560#20, 6632#20, 1048575#20, 74565#20].map (fun v =>
      seen (fun t => (t.results.pHundreds, t.results.pTens, t.results.pOnes)) (exec .compp (sampledP v))) =
    [some (4#8, 5#8, 0#8), some (0#8, 0#8, 0#8), some (0#8, 0#8, 0#8), some (0#8, 5#8, 0#8), some (1#8, 0#8, 0#8),
     some (0#8, 0#8, 0#8), some (2#8, 5#8, 0#8), some (1#8, 5#8, 0#8)] := by decide

/-- P-2, P-3. -/
theorem test_compp_outside_domain :
    pressure 0#20 = -81900 ∧ pressure 6551#20 = -50 ∧
    seen (fun t => t.results.pHundreds) (exec .compp (sampledP 6551#20)) = some (Config.anyByte 0) := ⟨rfl, rfl, rfl⟩

/-- R237: `nTT = 2`: `PUB 0` gives `TT = 2`. -/
theorem test_pub_0 :
    seen (fun t => (t.digits.tTens, t.hist)) (exec (.pub 0#8) { State.reset with
      results := { Digits.zero with tTens := 2#8 } }) = some (2#8, [.pub .tTens 2#8]) := by decide

/-! ### Scanner (95_test_vectors.md 5) -/

/-- K0 to K9: the committed bytes and the advance, from each scan state in turn. -/
theorem test_ticks :
    (List.finRange 10).map (fun k => seen (fun t => (commits t.hist, t.scan.val)) (exec .tick (showing k))) =
    [some ([0x5B#8], 1), some ([0x6D#8], 2), some ([0x80#8], 3), some ([0x3F#8], 4), some ([0x39#8], 5), some ([0x66#8], 6),
     some ([0x6D#8], 7), some ([0x3F#8], 8), some ([0x73#8], 9), some ([], 0)] := by decide

/-- K10: a digit of 200 shows a free glyph. -/
theorem test_tick_above_the_table :
    seen (fun t => (t.dout, t.scan)) (exec .tick { showing 0 with digits := { Digits.zero with tTens := 200#8 } }) =
      some (Config.anyByte 0, 1) := rfl

/-- The rows of the scan states. -/
theorem test_scan_rows :
    [Instr.scan0, .scan1, .scan2, .scan3, .scan4, .scan5, .scan6, .scan7, .scan8, .scan9].map (fun i =>
      seen (fun t => (t.dout, t.scan.val)) (exec i { showing 0 with dout := 0x73#8 })) =
    [some (0x5B#8, 1), some (0x6D#8, 2), some (0x80#8, 3), some (0x3F#8, 4), some (0x39#8, 5), some (0x66#8, 6),
     some (0x6D#8, 7), some (0x3F#8, 8), some (0x73#8, 9), some (0x73#8, 0)] := by decide

/-- K13. -/
theorem test_show :
    seen (fun t => (t.hist, t.dout)) (exec (.showg 0x5B#8) { State.reset with dout := 0x3F#8 }) = some
      ([.latch .deasserted, .xfer 0x5B#8 (Config.anyByte 0), .latch .asserted, .commit 0x5B#8], 0x5B#8) := rfl

/-- R203: the default table is the bit assignment `a` = bit 0 .. `dp` = bit 7, 1 = lit, applied to R202's segments. -/
theorem test_default_glyphs_are_the_segments :
    Config.segments.toList.map SegMap.default.encode = Config.defaultGlyph.toList ∧
    SegMap.default.encode Config.pointSegments = Params.default.glyphDp ∧ SegMap.default.injective := by decide

/-! ### Interrupt and timer (95_test_vectors.md 6) -/

/-- I1, I2. -/
theorem test_compare_match :
    (compareMatch booted).tickPend = true ∧ irqReady (compareMatch booted) = true ∧
    (compareMatch State.reset).tickPend = false := by decide

/-- I4. -/
theorem test_interrupt_run :
    seen (fun t => (t.tickPend, t.ie, t.ctx, t.mseq, t.scan, t.dout)) (step ready) =
      some (false, true, .main, .poll 7, 5, 0x39#8) := by decide

/-- I7 to I13. -/
theorem test_tcfg :
    seen (fun t => (t.cmp, t.trun)) (exec .tcfg (timed 15625 125 8)) = some (124, true) ∧
    refusedBy (exec .tcfg (timed 15625 1 8)) = some .countOutOfRange ∧
    seen (fun t => t.cmp) (exec .tcfg (timed 15625 1 16)) = some 15624 ∧
    seen (fun t => t.cmp) (exec .tcfg (timed 15625 61 8)) = some 255 ∧
    refusedBy (exec .tcfg (timed 15625 60 8)) = some .countOutOfRange ∧
    refusedBy (exec .tcfg (timed 15625 20000 8)) = some .countOutOfRange ∧
    refusedBy (exec .tcfg (timed 15625 0 8)) = some .scanHzZero := by decide

/-- I14, I3. -/
theorem test_arm :
    seen (fun t => (t.ie, irqReady t)) (exec .arm State.reset) = some (true, false) ∧
    seen irqReady (exec .arm { State.reset with tickPend := true }) = some true := by decide

/-! ### Main line (95_test_vectors.md 7) -/

/-- P1: 15 transfers, and the end state. -/
theorem test_boot :
    seen (fun t => (t.cmp, t.trun, t.ie, t.tickPend, t.cs, t.latch)) (exec .boot State.reset) =
      some (124, true, true, false, .deasserted, .asserted) ∧
    seen (fun t => (t.cnt, t.done, t.dsr, t.draws, t.adct.written)) (exec .boot State.reset) =
      some (8, true, 0x00#8, 15, false) := ⟨rfl, rfl⟩

/-- P2: 10 transfers; a first polling cycle after boot. -/
theorem test_poll :
    seen (fun t => (t.env, t.cs, t.done, t.scan, t.ie, t.adct.written, t.adcp.written)) (exec .poll booted) =
      some ([], .deasserted, true, 0, true, true, true) := rfl

/-- R239, R243: an environment may choose `IDLE` for ever, and may choose freely. -/
theorem test_idling_is_not_fair :
    seen (fun t => t.mseq) (step { booted with mseq := .idle, sched := { booted.sched with idlesOnward := .always } }) =
      some .idle ∧
    ({ booted.sched with idlesOnward := .free 3 } : Schedule).nextIdle = Config.freeIdle 3 := ⟨by decide, rfl⟩

/-- R241, R243: an environment may let only compare-matches come. -/
theorem test_starving_is_not_fair :
    seen (fun t => (t.tickPend, t.mseq)) (step { booted with sched := { booted.sched with arrivalsOnward := .always } }) =
      some (true, .poll 0) ∧
    ({ booted.sched with arrivalsOnward := .free 3 } : Schedule).nextArrival = Config.freeArrival 3 := ⟨by decide, rfl⟩

/-- R243: under the same environment, after one move of the block, a placed `CONFIG` gets no further than its second µop. -/
theorem test_starving_stops_a_macro :
    seen (fun t => (t.cs, t.env, t.hist)) (exec .config { booted with
      sched := { booted.sched with arrivals := [false], arrivalsOnward := .always } }) =
      some (.asserted, [0x74#8], [.cs .asserted, .xfer 0x74#8 (Config.anyByte 0)]) ∧
    boundary { booted with sched := { booted.sched with arrivalsOnward := .free 3 } } =
      (if (Config.freeBoundary 3).2 then
        settle (Config.freeBoundary 3).1 starve { booted with sched := { booted.sched with arrivalsOnward := .always } }
      else settle (Config.freeBoundary 3).1 letGo { booted with sched := { booted.sched with arrivalsOnward := .free 4 } }) :=
  ⟨rfl, rfl⟩

/-- R303, R22: before `LOADCAL` and any sample, on the values held since reset; and on written registers (T-1). -/
theorem test_unwritten_reads :
    seen (fun t => t.misreads) (step (State.reset.withFetchWord 8 0x20)) = some [.adct, .t1, .t2, .t3] ∧
    seen (fun t => t.misreads) (step (booted.withFetchWord 8 0x21)) = some [.adcp] ∧
    seen (fun t => t.misreads) (step ((sampledT 519888#20).withFetchWord 8 0x20)) = some [] := ⟨rfl, rfl, rfl⟩

/-- R239. -/
theorem test_idle : exec .idle booted = .next booted := rfl

/-- The first step from reset is `BOOT0` (R232, R301). -/
theorem test_first_step :
    seen (fun t => (t.cs, t.mseq)) (step State.reset) = some (.asserted, .boot 1) := by decide

/-- A placed table word is the very next step's operation, from reset. -/
theorem test_placed_word :
    step (State.reset.withFetchWord 16 0x055B) =
      exec (.xfer 0x5B#8) { State.reset with program := ⟨.code, []⟩ } := rfl

/-! ### Witnesses: states and operands that meet every hypothesis of a statement -/

theorem witness_DecodeOfEncodeIsTheOperation : (Instr.readpair 0x8A#8).wf = true := by decide

theorem witness_DecodedBytesAreTheEncoding :
    decode .sensorFrame [0x74#8, 0x43#8, 0x00#8] = .ok .wireCfg [0x00#8] := by decide

theorem witness_CodesOutsideTheTableAreRejected :
    0x06#8 ∉ [0x00#8, 0x01#8, 0x02#8, 0x03#8, 0x04#8, 0x05#8, 0x10#8, 0x11#8, 0x12#8, 0x13#8, 0x20#8, 0x21#8, 0x22#8, 0x30#8,
      0x31#8, 0x40#8, 0x41#8, 0x42#8, 0x43#8] ∧
    0x8B#8 ∉ [0x88#8, 0x8A#8, 0x8E#8] ∧ 0xFC#8 ∉ [0xFA#8, 0xFB#8] ∧ 5 < (6#8 : Byte).toNat ∧
    0x43#8 ∉ [0x74#8, 0x88#8, 0x8A#8, 0x8E#8, 0xFA#8, 0xFB#8] ∧ 9 < (10#8 : Byte).toNat := by decide

theorem witness_XferExchangesOneByte :
    clockGives 8 selected = true ∧ clockGives 8 (clocked 8 State.reset) = true := by decide

theorem witness_SensorReplyContract :
    ((0x8E#8 = 0x88#8 ∨ 0x8E#8 = 0x8A#8 ∨ 0x8E#8 = 0x8E#8) ∧ 3 < 4) ∧ ((0xFB#8 = 0xFA#8 ∨ 0xFB#8 = 0xFB#8) ∧ 2 < 3) ∧
    (∀ (c : Byte) (k : Nat), ((c = 0x88#8 ∨ c = 0x8A#8 ∨ c = 0x8E#8) ∧ k < 4 ∨ (c = 0xFA#8 ∨ c = 0xFB#8) ∧ k < 3) →
      [0xFA#8, 0#8, 0#8, 0#8] ≠ c :: List.replicate k 0#8) := by
  refine ⟨by decide, by decide, ?_⟩
  intro c k h e
  have hk : k = 3 := by simpa using (congrArg List.length e).symm
  have hc : c = 0xFA#8 := by simpa using (congrArg List.head? e).symm
  subst hk hc
  simp at h

theorem witness_StalledClockHangsXfer :
    (clocked 7 selected).sched.clock = some 7 ∧ 7 < 8 ∧ (clocked 0 selected).sched.clock = some 0 := by decide

theorem witness_HungBlockStaysHung : (xfer 0x5B#8 (clocked 3 selected)).hung = true := by decide

theorem witness_ChipSelectOperations : State.reset.cs = .deasserted ∧ selected.cs = .asserted := by decide

theorem witness_LatchOperations :
    (deassertLatch State.reset).latch = .deasserted ∧ State.reset.latch = .asserted := by decide

theorem witness_OutputIsTheLastCommit : ∃ t, step ready = .next t ∧ commits t.hist = [0x39#8] := ⟨_, rfl, by decide⟩

theorem witness_StepsIndependentOfBitOrder : State.reset.sched.clock = none := by decide

theorem witness_ConfigFrame :
    (clocked 16 booted).hung = false ∧ Undisturbed (clocked 16 booted) ∧ (clocked 16 booted).cs = .deasserted ∧
    clockGives 16 (clocked 16 booted) = true := by decide

theorem witness_ReadpairFrame :
    (clocked 40 booted).hung = false ∧ Undisturbed (clocked 40 booted) ∧ (clocked 40 booted).cs = .deasserted ∧
    clockGives 40 (clocked 40 booted) = true := by decide

theorem witness_ReadtripleFrame :
    (clocked 32 booted).hung = false ∧ Undisturbed (clocked 32 booted) ∧ (clocked 32 booted).cs = .deasserted ∧
    clockGives 32 (clocked 32 booted) = true := by decide

theorem witness_WireSensorFrames :
    (clocked 40 booted).hung = false ∧ Undisturbed (clocked 40 booted) ∧ (clocked 40 booted).cs = .deasserted ∧
    clockGives 16 (clocked 40 booted) = true ∧ clockGives 40 (clocked 40 booted) = true ∧
    clockGives 32 (clocked 40 booted) = true := by decide

theorem witness_LoadcalLoadsSixCoefficients : BoundariesEnd (clocked 120 State.reset) ∧
    (clocked 120 State.reset).hung = false ∧ (clocked 120 State.reset).ie = false ∧
    (clocked 120 State.reset).cs = .deasserted ∧ clockGives 120 (clocked 120 State.reset) = true := ⟨trivial, by decide⟩

theorem witness_SensorOperationsCompleteWhateverArrives :
    let s := { booted with sched := { booted.sched with arrivals := [true, false, true] } }
    BoundariesEnd s ∧ s.hung = false ∧ s.cs = .deasserted ∧ s.sched.clock = none ∧ Instr.config ∈ [Instr.config, .readpair 0x88#8,
      .readpair 0x8A#8, .readpair 0x8E#8, .readtriple 0xFA#8, .readtriple 0xFB#8, .loadcal] := ⟨trivial, by decide⟩

theorem witness_BadOperandsAreRefused :
    (Instr.readpair 0x89#8).wf = false ∧ (Instr.readtriple 0xF9#8).wf = false ∧ (Instr.pub 6#8).wf = false := by decide

/-- The interrupted read of P5, before the second of the three dummy transfers. -/
def interrupted : State :=
  { showing 0 with cs := .asserted, env := [0xFA#8, 0#8], tickPend := true, mseq := .poll 7 }

theorem witness_TickInsideAnEnvelope :
    interrupted.hung = false ∧ interrupted.sched.nextArrival = false ∧ irqReady interrupted = true ∧
    interrupted.cs = .asserted ∧ interrupted.env = 0xFA#8 :: List.replicate 1 interrupted.params.dummy ∧
    clockGives 8 interrupted = true ∧ interrupted.scan ≠ 9 ∧
    seen (fun t => t.dout) (step interrupted) = some 0x5B#8 ∧ 0x5B#8 ≠ interrupted.params.dummy := by decide

/-- The same with a dummy byte equal to the glyph that is sent (P5, first variant). -/
theorem witness_TickInsideAnEnvelope_dummy_glyph :
    let s := { interrupted with env := [0xFA#8], params := { Params.default with dummy := 0x5B#8 } }
    irqReady s = true ∧ s.env = 0xFA#8 :: List.replicate 0 s.params.dummy ∧ clockGives 8 s = true ∧ s.scan ≠ 9 ∧
    seen (fun t => t.dout) (step s) = some s.params.dummy := by decide

/-- The same right after `CSA`, the next byte a command. -/
theorem witness_TickInsideAnEnvelope_empty :
    let s := { interrupted with env := [], mseq := .poll 5 }
    s.hung = false ∧ s.sched.nextArrival = false ∧ irqReady s = true ∧ s.cs = .asserted ∧ clockGives 8 s = true ∧
    s.scan ≠ 9 ∧ s.env = [] ∧ 0xFA#8 ≠ s.params.dummy := by decide

/-- T-3 and T-8, the lowest and the highest value of the domain for these coefficients. -/
theorem witness_TemperatureDigitsInDomain :
    tempInDomain (sampledT 761119#20).adct.value booted.t1.value booted.t2.value booted.t3.value ∧
    tempInDomain (sampledT 440064#20).adct.value booted.t1.value booted.t2.value booted.t3.value := by decide

/-- T-5, T-9, and section 4.1's product outside `Fits32`. -/
theorem witness_TemperatureDigitsOutsideDomain :
    ¬ tempInDomain (sampledT 440063#20).adct.value booted.t1.value booted.t2.value booted.t3.value ∧
    ¬ tempInDomain (sampledT 761120#20).adct.value booted.t1.value booted.t2.value booted.t3.value ∧
    tempM1 1048575#20 0x8000#16 0x7FFF#16 = 6442221569 ∧ ¬ fits32 6442221569 := by decide

theorem witness_PressureDigitsInDomain :
    6552 ≤ (sampledP 6552#20).adcp.value.toNat := by decide

theorem witness_PressureDigitsOutsideDomain :
    (sampledP 6551#20).adcp.value.toNat < 6552 := by decide

theorem witness_GlyphFrames :
    booted.hung = false ∧ clockGives 8 (clocked 8 booted) = true ∧ clockGives 8 (clocked 7 booted) = false := by decide

theorem witness_ScanStateActions :
    (showing 0).hung = false ∧ clockGives 8 (showing 0) = true ∧ (showing 0).digits.tTens.toNat < 12 ∧
    (showing 0).digits.tOnes.toNat < 12 ∧ (showing 0).digits.tTenths.toNat < 12 ∧ (showing 0).digits.pHundreds.toNat < 12 ∧
    (showing 0).digits.pTens.toNat < 12 ∧ (showing 0).digits.pOnes.toNat < 12 ∧ (11#8 : Byte).toNat < 12 := by decide

theorem witness_DigitsAboveTheTableShowAFreeGlyph :
    let s := { booted with digits := ⟨12#8, 12#8, 12#8, 255#8, 12#8, 12#8⟩ }
    s.hung = false ∧ clockGives 8 s = true ∧ 12 ≤ s.digits.tTens.toNat ∧ 12 ≤ s.digits.tOnes.toNat ∧
    12 ≤ s.digits.tTenths.toNat ∧ 12 ≤ s.digits.pHundreds.toNat ∧ 12 ≤ s.digits.pTens.toNat ∧ 12 ≤ s.digits.pOnes.toNat := by
  decide

theorem witness_TickDispatchesOnScan : ∀ k : Fin 10, (showing k).scan = k := by decide

theorem witness_TickShowsTheGlyphOfItsState : ∀ k : Fin 10,
    (showing k).scan = k ∧ (showing k).hung = false ∧ clockGives 8 (showing k) = true ∧
    (showing k).digits.tTens.toNat < 12 ∧ (showing k).digits.tOnes.toNat < 12 ∧ (showing k).digits.tTenths.toNat < 12 ∧
    (showing k).digits.pHundreds.toNat < 12 ∧ (showing k).digits.pTens.toNat < 12 ∧ (showing k).digits.pOnes.toNat < 12 := by
  decide

theorem witness_TickAdvancesScan :
    (showing 9).hung = false ∧ clockGives 8 (showing 9) = true ∧ clockGives 8 (clocked 7 (showing 8)) = false ∧
    (clocked 7 (showing 8)).scan ≠ 9 := by decide

theorem witness_TenFiringsAreOnePeriod :
    (clocked 72 (showing 0)).hung = false ∧ clockGives 72 (clocked 72 (showing 0)) = true ∧ (clocked 72 (showing 0)).scan = 0 ∧
    (showing 0).digits.tTens.toNat < 12 ∧ (showing 0).digits.tOnes.toNat < 12 ∧ (showing 0).digits.tTenths.toNat < 12 ∧
    (showing 0).digits.pHundreds.toNat < 12 ∧ (showing 0).digits.pTens.toNat < 12 ∧ (showing 0).digits.pOnes.toNat < 12 := by
  decide

theorem witness_CompareMatchSetsPending :
    let s := { booted with sched := { booted.sched with arrivals := [true] } }
    let r := { State.reset with sched := { State.reset.sched with arrivalsOnward := .always } }
    s.sched.nextArrival = true ∧ s.trun = true ∧ r.sched.nextArrival = true ∧ r.trun = false := by decide

theorem witness_InterruptEntryAndReturn :
    seen (fun t => t.hung) (exec .tick (irqEnter ready)) = some false ∧
    seen (fun t => t.hung) (exec .tick (irqEnter (clocked 7 ready))) = some true := by decide

theorem witness_ReadyInterruptIsTaken :
    ready.hung = false ∧ ready.sched.nextArrival = false ∧ ready.ctx = .main ∧ ready.ie = true ∧ ready.tickPend = true ∧
    clockGives 8 ready = true ∧ ready.scan ≠ 9 ∧ { ready with scan := 9 }.scan = 9 := by decide

/-- I7, the boundary count of I10, and I13, I12, I11. -/
theorem witness_TimerConfiguration :
    0 < (timed 15625 61 8).params.scanHz ∧ 1 ≤ (timed 15625 61 8).params.timerClkHz / (timed 15625 61 8).params.scanHz ∧
    (timed 15625 61 8).params.timerClkHz / (timed 15625 61 8).params.scanHz ≤ 2 ^ (timed 15625 61 8).params.cmpW ∧
    (timed 15625 0 8).params.scanHz = 0 ∧ 0 < (timed 15625 20000 8).params.scanHz ∧ 15625 / 20000 = 0 ∧
    2 ^ 8 < 15625 / 60 := by decide

theorem witness_ArmEnablesTheInterrupt :
    let s := { State.reset with tickPend := true }
    s.ctx = .main ∧ s.tickPend = true := by decide

theorem witness_ParametersAreFixed : ∃ t, step State.reset = .next t := ⟨_, rfl⟩

theorem witness_MainNeverTouchesTheScanner :
    let s := { showing 0 with mseq := .poll 18, results := { Digits.zero with tTens := 9#8 } }
    seen (fun t => t.digits.tTens) (mainUop s) = some 9#8 ∧ s.digits.tTens = 2#8 := by decide

theorem witness_TornUpdateShowsOldAndNew :
    (showing 0).hung = false ∧ Undisturbed (showing 0) ∧
    ∃ t, runUops ([Digit.tTens].map .pub) (showing 0) = .next t ∧ t.scan = 0 ∧ clockGives 8 t = true ∧
      (t.digits.get .tTens).toNat < 12 := ⟨rfl, by decide, _, rfl, by decide⟩

/-- At `POLL0` with two `IDLE`s asked for, and idling that would go on for ever after the next cycle. -/
def cycling : State :=
  { clocked 80 booted with sched := { booted.sched with clock := some 80, idles := [true, true, false], idlesOnward := .always } }

theorem witness_SequenceSuccessor :
    seen (fun t => (t.hung, t.mseq)) (mainUop State.reset) = some (false, .boot 1) ∧
    seen (fun t => (t.hung, t.mseq)) (mainUop { State.reset with mseq := .boot 22 }) = some (false, .poll 0) ∧
    seen (fun t => (t.hung, t.mseq)) (mainUop { booted with mseq := .poll 22 }) = some (false, .poll 23) ∧
    seen (fun t => (t.hung, t.mseq)) (mainUop { booted with mseq := .poll 23 }) = some (false, .poll 0) ∧
    seen (fun t => (t.hung, t.mseq)) (mainUop { booted with mseq := .idle }) = some (false, .poll 0) ∧
    seen (fun t => (t.hung, t.mseq)) (mainUop { cycling with mseq := .idle }) = some (false, .idle) ∧
    seen (fun t => (t.hung, t.mseq)) (mainUop (clocked 7 { selected with mseq := .boot 1 })) = some (true, .boot 1) := by decide

theorem witness_BootLoadsConfiguresAndArms : BoundariesEnd (clocked 120 State.reset) ∧
    (clocked 120 State.reset).hung = false ∧ (clocked 120 State.reset).ie = false ∧
    (clocked 120 State.reset).cs = .deasserted ∧ clockGives 120 (clocked 120 State.reset) = true ∧
    (clocked 120 State.reset).params.timerOk := ⟨trivial, by decide⟩

theorem witness_PollRefreshesTheDigits :
    (clocked 80 booted).hung = false ∧ Undisturbed (clocked 80 booted) ∧ (clocked 80 booted).cs = .deasserted ∧
    clockGives 80 (clocked 80 booted) = true ∧ (clocked 80 booted).params.publishesEach := by decide

theorem witness_BootIsTwentyThreeSteps :
    (clocked 120 State.reset).hung = false ∧ Undisturbed (clocked 120 State.reset) ∧
    (clocked 120 State.reset).program.bytes = [] ∧ (clocked 120 State.reset).ctx = .main ∧
    (clocked 120 State.reset).mseq = .boot 0 ∧ (clocked 120 State.reset).ie = false ∧
    (clocked 120 State.reset).cs = .deasserted ∧ clockGives 120 (clocked 120 State.reset) = true ∧
    (clocked 120 State.reset).params.timerOk := by decide

theorem witness_PollIsOneCycleOfSteps :
    cycling.hung = false ∧ Undisturbed cycling ∧ IdlingEnds cycling ∧ cycling.program.bytes = [] ∧
    cycling.ctx = .main ∧ cycling.mseq = .poll 0 ∧ cycling.cs = .deasserted ∧ clockGives 80 cycling = true := by decide

theorem witness_StepRunsThePlacedOperation :
    let s := { booted with program := ⟨.code, [0x01#8]⟩ }
    let r := { s with sched := { s.sched with arrivals := [false] } }
    s.hung = false ∧ irqReady s = false ∧ decode s.program.space s.program.bytes = .ok .csa [] ∧
    s.sched.nextArrival = false ∧
    r.hung = false ∧ irqReady r = false ∧ decode r.program.space r.program.bytes = .ok .csa [] ∧
    r.sched.nextArrival = false := by decide

theorem witness_StepRefusesUndecodableBytes :
    let s := { booted with program := ⟨.code, [0x06#8]⟩ }
    s.hung = false ∧ irqReady s = false ∧ s.sched.nextArrival = false ∧ s.program.bytes ≠ [] ∧
    decode s.program.space s.program.bytes = .reject (.unknownCode 0x06#8) := by decide

theorem witness_StepRunsTheSequence :
    State.reset.hung = false ∧ irqReady State.reset = false ∧ State.reset.sched.nextArrival = false ∧
    State.reset.program.bytes = [] ∧ State.reset.ctx = .main := by decide

/-- The state after reset is in order; so is the state after boot. -/
theorem booted_running : SequenceRunning booted := by constructor <;> decide

theorem witness_FixedSequenceNeverStops : SequenceInv booted := ⟨by decide, by decide, rfl, .inr booted_running⟩

theorem witness_CoefficientsImmutableAfterBoot :
    SequenceInv booted ∧ bootPlace booted.mseq = 23 ∧ ∃ t, step booted = .next t :=
  ⟨witness_FixedSequenceNeverStops, by decide, _, rfl⟩

theorem witness_BlockInvariantKept : BlockInv booted ∧ ∃ t, step booted = .next t :=
  ⟨by constructor <;> decide, _, rfl⟩

theorem witness_BlockInvariantAtReset : PowerOn.zero.cmp < 2 ^ Params.default.cmpW := by decide

theorem witness_FixedSequenceStartsInOrder : Params.default.timerOk := by decide

end Sys2Proof.Tests
end

namespace Sys2Proof.Machine

open Sys2Proof

/-! ### What the µops that can be refused do when they go on -/

theorem execCsa_next {s t : State} (h : execCsa s = .next t) : s.cs = .deasserted ∧ t = assertCs s := by
  unfold execCsa at h
  split at h
  · rename_i hc; cases h; exact ⟨hc, rfl⟩
  · cases h

theorem execCsd_next {s t : State} (h : execCsd s = .next t) : s.cs = .asserted ∧ t = deassertCs s := by
  unfold execCsd at h
  split at h
  · rename_i hc; cases h; exact ⟨hc, rfl⟩
  · cases h

theorem execTcfg_next {s t : State} (h : execTcfg s = .next t) :
    s.params.scanHz ≠ 0 ∧ 1 ≤ s.params.timerCount ∧ s.params.timerCount ≤ 2 ^ s.params.cmpW ∧ t = startTimer s := by
  unfold execTcfg at h
  split at h
  · cases h
  · rename_i hz
    split at h
    · rename_i hc; cases h; exact ⟨hz, hc.1, hc.2, rfl⟩
    · cases h

theorem execPub_selectorByte (k : Digit) (s : State) : execPub (selectorByte k) s = .next (publish k s) := by
  simp [execPub]

/-! ### The parameters (R8, R238) -/

/-- `TCFG` only reads the parameters (R274); no other µop names them as a destination. -/
theorem uopEffect_params {u : Uop} {s t : State} (h : uopEffect u s = .next t) : t.params = s.params := by
  cases u with
  | csa => obtain ⟨-, rfl⟩ := execCsa_next h; simp
  | csd _ => obtain ⟨-, rfl⟩ := execCsd_next h; simp
  | latd => cases h; simp
  | lata => cases h; simp
  | xfer b _ => cases h; simp
  | compt => cases h; simp
  | compp => cases h; simp
  | pub k => cases (execPub_selectorByte k s).symm.trans h; simp
  | tcfg => obtain ⟨-, -, -, rfl⟩ := execTcfg_next h; simp
  | arm => cases h; simp
  | idle => cases h; rfl

@[simp] theorem capture_params (u : Uop) (s : State) : (capture u s).params = s.params := by
  unfold capture
  split
  · rename_i k; cases k <;> rfl
  · rename_i c; cases c <;> rfl
  · rename_i c; cases c <;> rfl
  · rfl

/-- Keeping the parameters is kept by every part of an operation. -/
theorem params_keptByParts : KeptByParts (fun s t => t.params = s.params) where
  refl _ := rfl
  trans _ _ _ hst htu := htu.trans hst
  uop _ _ _ _ h := uopEffect_params h
  captured u s _ := capture_params u s
  arrivals a s := (setArrivals_frame a s).1
  onward o _ s _ := (setOnward_frame o s).1
  taken s := (takeArrival_frame s).1
  idles l s := (setIdles_frame l s).1
  event s := (compareMatch_frame s).1
  isr s _ _ := (runIsr_frame s).1
  shown g s _ := (showGlyph_frame g s).1
  ticked k s _ := (tickIn_frame k s).1

/-- Settles O42: every part of an operation keeps the parameters, so by `KeptByParts.step` every step does. -/
theorem parametersAreFixed : Obligations.ParametersAreFixed := fun _ _ h =>
  params_keptByParts.step (fun s _ => (advanceMseq_frame s).1) (fun s _ _ => (irqReturn_frame s).1)
    (fun r s => (setBytes_frame r s).1) h

end Sys2Proof.Machine

namespace Sys2Proof.Machine

open Sys2Proof

/-! ### The pulse counter (R30) -/

/-- `CNT` counts the pulses of the byte in transfer. -/
theorem pulses_cnt {n : Nat} (hn : n ≤ 8) (b rin : Byte) {s : State} (hs : s.cnt = 0) :
    (pulses n b rin s).cnt.val = n := by
  interval_cases n <;> simp [pulses, allPulses, pulse, hs]

theorem pulsesLeft_lt {s : State} (h : clockGives 8 s = false) : pulsesLeft s < 8 := by
  unfold clockGives at h
  unfold pulsesLeft
  split at h
  · cases h
  · rename_i hm; simpa [hm] using h

theorem xfer_hangs_cnt {b : Byte} {s : State} (h : clockGives 8 s = false) : (xfer b s).cnt ≠ 8 := by
  have hlt := pulsesLeft_lt h
  have hcnt := pulses_cnt hlt.le b (incoming s) (s := xferStart b s) (by simp)
  have hx : (xfer b s).cnt = (pulses (pulsesLeft s) b (incoming s) (xferStart b s)).cnt := by
    simp [xfer, h, xferHang]
  intro h8
  rw [hx] at h8
  rw [h8] at hcnt
  exact hlt.ne hcnt.symm

/-! ### The block's invariant -/

/-- The part of the block's invariant that speaks of byte transfers (R30, R45, R311). It holds inside the handler too, where
`isr_hung` does not. -/
structure TransferInv (s : State) : Prop where
  done_iff : s.done = true ↔ s.cnt = 8
  env_closed : s.cs = .deasserted → s.env = []
  hung_masked : s.hung = true → s.ie = false ∧ s.done = false

theorem BlockInv.transferInv {s : State} (h : BlockInv s) : TransferInv s := { h with }

/-- In a running block the transfers' invariant is a matter of `DONE`, `CNT`, `CS` and `ENV` alone. -/
theorem TransferInv.of_running {s t : State} (h : TransferInv s) (ht : t.hung = false)
    (e : t.done = s.done ∧ t.cnt = s.cnt ∧ t.cs = s.cs ∧ t.env = s.env) : TransferInv t := by
  obtain ⟨hdone, hcnt, hcs, henv⟩ := e
  exact ⟨by rw [hdone, hcnt]; exact h.done_iff, by rw [hcs, henv]; exact h.env_closed, by simp [ht]⟩

theorem TransferInv.xfer {s : State} (h : TransferInv s) (hs : s.hung = false) (b : Byte) :
    TransferInv (xfer b s) := by
  cases hc : clockGives 8 s with
  | true =>
    obtain ⟨-, hcnt, hdone, -, -, -, hhung, -, henv, -⟩ := xfer_completes (b := b) hc
    refine ⟨by simp [hcnt, hdone], fun hcs => ?_, by simp [hhung, hs]⟩
    have hcs : s.cs = .deasserted := by simpa using hcs
    simp [henv, hcs, h.env_closed hcs]
  | false =>
    obtain ⟨-, hie, hdone, -, -, henv, -⟩ := xfer_hangs (b := b) hc
    refine ⟨by simp [hdone, xfer_hangs_cnt hc], fun hcs => ?_, fun _ => ⟨hie, hdone⟩⟩
    rw [henv]
    exact h.env_closed (by simpa using hcs)

theorem TransferInv.showGlyph {s : State} (h : TransferInv s) (hs : s.hung = false) (g : Byte) :
    TransferInv (showGlyph g s) := by
  have hx : TransferInv (Machine.xfer g (deassertLatch s)) :=
    (h.of_running (t := deassertLatch s) hs (by simp)).xfer hs g
  unfold Machine.showGlyph
  simp only []
  split
  · exact hx
  · rename_i hh; exact hx.of_running (by simpa using hh) (by simp)

theorem TransferInv.tickIn {s : State} (h : TransferInv s) (hs : s.hung = false) (k : Fin 10) :
    TransferInv (tickIn k s) := by
  have action : TransferInv (scanAction k s) := by
    rcases scanAction_cases k s with e | ⟨g, d, e⟩ <;> rw [e]
    · exact h
    · exact (h.of_running (t := { s with draws := d }) hs (by simp)).showGlyph hs g
  unfold Machine.tickIn advanceScan
  split
  · exact action
  · exact { action with }

theorem TransferInv.runIsr {s : State} (h : TransferInv s) (hs : s.hung = false) : TransferInv (runIsr s) := by
  have ht : TransferInv (tick (irqEnter s)) :=
    (h.of_running (t := irqEnter s) hs (by simp)).tickIn hs _
  unfold Machine.runIsr
  simp only []
  split
  · exact ht
  · rename_i hh; exact ht.of_running (by simpa using hh) (by simp)

/-- An operation that keeps the transfers' invariant in a running block, and leaves the context and the timer alone, keeps
the block's invariant. -/
theorem BlockInv.of_transferInv {s t : State} (h : BlockInv s) (hs : s.hung = false) (ht : TransferInv t)
    (e : t.ctx = s.ctx ∧ t.tickPend = s.tickPend ∧ t.trun = s.trun ∧ t.cmp = s.cmp ∧ t.params = s.params) :
    BlockInv t := by
  obtain ⟨hctx, hpend, htrun, hcmp, hparams⟩ := e
  refine { ht with isr_hung := fun hi => ?_, pending_runs := ?_, cmp_fits := ?_ }
  · have := h.isr_hung (hctx ▸ hi)
    simp [hs] at this
  · rw [hpend, htrun]; exact h.pending_runs
  · rw [hcmp, hparams]; exact h.cmp_fits

theorem BlockInv.uopEffect {u : Uop} {s t : State} (h : BlockInv s) (hs : s.hung = false)
    (hu : uopEffect u s = .next t) : BlockInv t := by
  cases u with
  | csa => obtain ⟨-, rfl⟩ := execCsa_next hu; exact { h with env_closed := by simp }
  | csd _ => obtain ⟨-, rfl⟩ := execCsd_next hu; exact { h with env_closed := by simp }
  | latd => cases hu; exact { h with }
  | lata => cases hu; exact { h with }
  | xfer b _ => cases hu; exact h.of_transferInv hs (h.transferInv.xfer hs b) (by simp)
  | compt => cases hu; exact { h with }
  | compp => cases hu; exact { h with }
  | pub k => cases (execPub_selectorByte k s).symm.trans hu; exact { h with }
  | tcfg =>
    obtain ⟨-, hpos, hfits, rfl⟩ := execTcfg_next hu
    exact { h with pending_runs := by simp, cmp_fits := by simp only [startTimer_writes, startTimer_frame]; omega }
  | arm => cases hu; exact { h with hung_masked := by simp [hs] }
  | idle => cases hu; exact h

/-- `MAIN` captures into its reply bytes, the coefficients and the samples (R108), none of which the invariant speaks of. -/
theorem BlockInv.capture {s : State} (h : BlockInv s) (u : Uop) : BlockInv (capture u s) := by
  unfold Machine.capture
  split
  · rename_i k; cases k <;> exact { h with }
  · rename_i c; cases c <;> exact { h with }
  · rename_i c; cases c <;> exact { h with }
  · exact h

theorem BlockInv.compareMatch {s : State} (h : BlockInv s) : BlockInv (compareMatch s) := by
  refine { h with pending_runs := fun hm => ?_ }
  simp only [compareMatch_writes, compareMatch_frame, Bool.or_eq_true] at hm ⊢
  exact hm.elim id h.pending_runs

/-- A run of the handler clears `TICK_PEND` and, unless it hangs, is back in `MAIN` (R268, R272). -/
theorem BlockInv.runIsr {s : State} (h : BlockInv s) (hs : s.hung = false) : BlockInv (runIsr s) := by
  have ht := h.transferInv.runIsr hs
  have hcmp : (Machine.runIsr s).cmp < 2 ^ (Machine.runIsr s).params.cmpW := by simpa using h.cmp_fits
  obtain ⟨-, hctx, -, -, -, hpend, -⟩ | ⟨hhung, -, -, -, hpend⟩ := runIsr_cases s hs
  · exact { ht with isr_hung := by simp [hctx], pending_runs := by simp [hpend], cmp_fits := hcmp }
  · exact { ht with isr_hung := fun _ => hhung, pending_runs := by simp [hpend], cmp_fits := hcmp }

/-- Keeping the block's invariant is kept by every part of an operation. -/
theorem blockInv_keptByParts : KeptByParts (fun s t => BlockInv s → BlockInv t) where
  refl _ := id
  trans _ _ _ hst htu := htu ∘ hst
  uop _ _ _ hs hu h := h.uopEffect hs hu
  captured u _ _ h := h.capture u
  arrivals _ _ h := { h with }
  onward _ _ _ _ h := { h with }
  taken _ h := { h with }
  idles _ _ h := { h with }
  event _ h := h.compareMatch
  isr _ hs _ h := h.runIsr hs
  shown g _ hs h := h.of_transferInv hs (h.transferInv.showGlyph hs g) (by simp)
  ticked k _ hs h := h.of_transferInv hs (h.transferInv.tickIn hs k) (by simp)

/-- Settles O57: every part of an operation keeps the invariant, so by `KeptByParts.step` every step does. A return from a
handler that is not hung does not arise: the invariant has no such state. -/
theorem blockInvariantKept : Obligations.BlockInvariantKept := fun s _ h ht =>
  blockInv_keptByParts.step (fun _ _ h => { h with })
    (fun s hs hc h => absurd (h.isr_hung hc) (by simp [hs])) (fun _ _ h => { h with }) ht h

/-- Settles O58: at reset `CS` is deasserted with an empty envelope, `MAIN` runs, and nothing is hung or pending; only `CMP`
needs the premise. -/
theorem blockInvariantAtReset : Obligations.BlockInvariantAtReset := fun _ _ _ hcmp =>
  { done_iff := by simp [State.resetWith]
    env_closed := fun _ => rfl
    isr_hung := nofun
    hung_masked := nofun
    pending_runs := nofun
    cmp_fits := hcmp }

/-! ### Reset (R47) -/

/-- Settles O5: each value of R47's table is the one `State.resetWith` gives, whatever it takes for the rest. -/
theorem resetState : Obligations.ResetState := by
  intro p v e
  repeat' constructor

/-! ### Reads of unwritten registers (R303) -/

@[simp] theorem unwritten_nil : unwritten [] = [] := rfl

@[simp] theorem unwritten_cons (r : RegName) (w : Bool) (reads : List (RegName × Bool)) :
    unwritten ((r, w) :: reads) = (if w then [] else [r]) ++ unwritten reads := by
  cases w <;> rfl

/-- Settles O28: both compensations answer next, and append to the record the unwritten among the registers they read. -/
theorem unwrittenReadsAreRecorded : Obligations.UnwrittenReadsAreRecorded := by
  intro s
  refine ⟨⟨compensateTemp s, rfl, ?_⟩, ⟨compensatePressure s, rfl, ?_⟩⟩
  · simp [tempMisreads]
  · simp [pressureMisreads]

end Sys2Proof.Machine

namespace Sys2Proof.Machine

open Sys2Proof

/-! ### The output is the last commit (R46, R68, R317) -/

@[simp] theorem lastCommit_append (d : Byte) (l m : List Event) :
    lastCommit d (l ++ m) = lastCommit (lastCommit d l) m := by
  induction l generalizing d with
  | nil => rfl
  | cons e l ih => cases e <;> exact ih _

/-- From `s` to `t` the history grows by some events, and `DOUT` is the last value they commit. -/
def OutputFollows (s t : State) : Prop := ∃ evs, t.hist = s.hist ++ evs ∧ t.dout = lastCommit s.dout evs

theorem OutputFollows.of_silent {s t : State} (e : t.hist = s.hist ∧ t.dout = s.dout) : OutputFollows s t :=
  ⟨[], by simp [e], e.2⟩

theorem OutputFollows.trans {s t u : State} (hst : OutputFollows s t) (htu : OutputFollows t u) : OutputFollows s u := by
  obtain ⟨l, hist, dout⟩ := hst
  obtain ⟨m, hist', dout'⟩ := htu
  exact ⟨l ++ m, by rw [hist', hist, List.append_assoc], by rw [dout', dout, lastCommit_append]⟩

/-- The two cases of R68: the latch goes to asserted and commits `DSR`, or it was asserted already and commits nothing. -/
theorem outputFollows_assertLatch (s : State) : OutputFollows s (assertLatch s) := by
  refine ⟨commitEvents s, rfl, ?_⟩
  cases hl : s.latch <;> simp [assertLatch, commitEvents, hl, lastCommit]

/-- `XFER` leaves `DOUT` alone (R121), and its one event, if it completes, is no commit. -/
theorem outputFollows_xfer (b : Byte) (s : State) : OutputFollows s (xfer b s) := by
  have hdout : (xfer b s).dout = s.dout := by simp
  cases hc : clockGives 8 s with
  | true =>
    obtain ⟨-, -, -, -, -, -, -, hhist, -⟩ := xfer_completes (b := b) hc
    exact ⟨_, hhist, hdout⟩
  | false =>
    obtain ⟨-, -, -, -, hhist, -⟩ := xfer_hangs (b := b) hc
    exact .of_silent ⟨hhist, hdout⟩

theorem outputFollows_showGlyph (g : Byte) (s : State) : OutputFollows s (showGlyph g s) := by
  have opened : OutputFollows s (deassertLatch s) := ⟨[.latch .deasserted], rfl, rfl⟩
  have sent := opened.trans (outputFollows_xfer g _)
  unfold showGlyph
  simp only []
  split
  · exact sent
  · exact sent.trans (outputFollows_assertLatch _)

theorem outputFollows_tickIn (k : Fin 10) (s : State) : OutputFollows s (tickIn k s) := by
  have action : OutputFollows s (scanAction k s) := by
    obtain e | ⟨g, d, e⟩ := scanAction_cases k s <;> rw [e]
    · exact .of_silent ⟨rfl, rfl⟩
    · exact outputFollows_showGlyph g { s with draws := d }
  unfold tickIn advanceScan
  split
  · exact action
  · exact action.trans (.of_silent ⟨rfl, rfl⟩)

theorem outputFollows_irqReturn (s : State) : OutputFollows s (irqReturn s) := ⟨[.irqReturn], rfl, rfl⟩

theorem outputFollows_runIsr (s : State) : OutputFollows s (runIsr s) := by
  have entered : OutputFollows s (irqEnter s) := ⟨[.irqEnter], rfl, rfl⟩
  have ticked := entered.trans (outputFollows_tickIn (irqEnter s).scan _)
  unfold runIsr tick
  simp only []
  split
  · exact ticked
  · exact ticked.trans (outputFollows_irqReturn _)

theorem outputFollows_uopEffect {u : Uop} {s t : State} (h : uopEffect u s = .next t) : OutputFollows s t := by
  cases u with
  | csa => obtain ⟨-, rfl⟩ := execCsa_next h; exact ⟨[.cs .asserted], rfl, rfl⟩
  | csd _ => obtain ⟨-, rfl⟩ := execCsd_next h; exact ⟨[.cs .deasserted], rfl, rfl⟩
  | latd => cases h; exact ⟨[.latch .deasserted], rfl, rfl⟩
  | lata => cases h; exact outputFollows_assertLatch s
  | xfer b _ => cases h; exact outputFollows_xfer b s
  | compt => cases h; exact .of_silent ⟨rfl, rfl⟩
  | compp => cases h; exact .of_silent ⟨rfl, rfl⟩
  | pub k => cases (execPub_selectorByte k s).symm.trans h; exact ⟨[.pub k (s.results.get k)], rfl, rfl⟩
  | tcfg => obtain ⟨-, -, -, rfl⟩ := execTcfg_next h; exact .of_silent ⟨rfl, rfl⟩
  | arm => cases h; exact .of_silent ⟨rfl, rfl⟩
  | idle => cases h; exact .of_silent ⟨rfl, rfl⟩

/-- `MAIN` captures into its reply bytes, the coefficients and the samples (R108); the captured state has the same observables. -/
theorem outputFollows_capture (u : Uop) (s : State) : OutputFollows s (capture u s) := by
  refine .of_silent ?_
  unfold capture
  split
  · rename_i k; cases k <;> exact ⟨rfl, rfl⟩
  · rename_i c; cases c <;> exact ⟨rfl, rfl⟩
  · rename_i c; cases c <;> exact ⟨rfl, rfl⟩
  · exact ⟨rfl, rfl⟩

/-- That the output follows the commits is kept by every part of an operation. -/
theorem outputFollows_keptByParts : KeptByParts OutputFollows where
  refl _ := .of_silent ⟨rfl, rfl⟩
  trans _ _ _ := .trans
  uop _ _ _ _ h := outputFollows_uopEffect h
  captured u s _ := outputFollows_capture u s
  arrivals _ _ := .of_silent ⟨rfl, rfl⟩
  onward _ _ _ _ := .of_silent ⟨rfl, rfl⟩
  taken _ := .of_silent ⟨rfl, rfl⟩
  idles _ _ := .of_silent ⟨rfl, rfl⟩
  event _ := .of_silent ⟨rfl, rfl⟩
  isr s _ _ := outputFollows_runIsr s
  shown g s _ := outputFollows_showGlyph g s
  ticked k s _ := outputFollows_tickIn k s

/-- Settles O13: every part of an operation appends to the history and leaves in `DOUT` the last value it committed, so by
`KeptByParts.step` every step does. -/
theorem outputIsTheLastCommit : Obligations.OutputIsTheLastCommit := fun _ _ h =>
  outputFollows_keptByParts.step (fun _ _ => .of_silent ⟨rfl, rfl⟩) (fun s _ _ => outputFollows_irqReturn s)
    (fun _ _ => .of_silent ⟨rfl, rfl⟩) h

end Sys2Proof.Machine

namespace Sys2Proof.Machine

open Sys2Proof

/-! ### The same machine with another bit order (R64, R122) -/

/-- The state with another value of `BIT_ORDER`. -/
def withBitOrder (o : BitOrder) (s : State) : State := { s with params := { s.params with bitOrder := o } }

/-- `t` is `s` with `BIT_ORDER` set to `o`, in a block whose clock always runs: only a transfer cut short leaves bits in an
order that shows (R124). -/
structure Twin (o : BitOrder) (s t : State) : Prop where
  clock_runs : s.sched.clock = none
  swapped : t = withBitOrder o s

section

variable {o : BitOrder} {s t : State}

theorem Twin.hung (h : Twin o s t) : t.hung = s.hung := by rw [h.swapped]; rfl

theorem Twin.irqReady (h : Twin o s t) : irqReady t = irqReady s := by rw [h.swapped]; rfl

/-- An update that takes no clock pulse and does the same under every bit order keeps twins. -/
theorem Twin.map (h : Twin o s t) (f : State → State) (clock : (f s).sched.clock = s.sched.clock)
    (commutes : f (withBitOrder o s) = withBitOrder o (f s)) : Twin o (f s) (f t) :=
  ⟨clock.trans h.clock_runs, by rw [h.swapped, commutes]⟩

/-! ### Transfers, ticks and the handler -/

/-- With the clock running a transfer is one exchange of bytes (R122), and an exchange of bytes has no bit order. -/
theorem Twin.xfer (h : Twin o s t) (b : Byte) : Twin o (xfer b s) (xfer b t) := by
  have gives : clockGives 8 s = true := by simp [clockGives, h.clock_runs]
  obtain rfl := h.swapped
  have gives' : clockGives 8 (withBitOrder o s) = true := gives
  exact ⟨xfer_clock h.clock_runs, by rw [xfer_eq gives, xfer_eq gives']; rfl⟩

theorem Twin.showGlyph (h : Twin o s t) (g : Byte) : Twin o (showGlyph g s) (showGlyph g t) := by
  have sent := (h.map deassertLatch rfl rfl).xfer g
  simp only [Machine.showGlyph, sent.hung]
  split
  · exact sent
  · exact sent.map assertLatch rfl rfl

theorem Twin.showDigit (h : Twin o s t) (d : Byte) : Twin o (showDigit d s) (showDigit d t) := by
  have hg : glyphNow d t = glyphNow d s := by rw [h.swapped]; rfl
  unfold Machine.showDigit
  rw [hg]
  exact (h.map (glyphRead d) rfl rfl).showGlyph _

theorem Twin.scanAction (h : Twin o s t) (k : Fin 10) : Twin o (scanAction k s) (scanAction k t) := by
  obtain rfl := h.swapped
  match k with
  | 0 => exact h.showDigit s.digits.tTens
  | 1 => exact h.showDigit s.digits.tOnes
  | 2 => exact h.showGlyph s.params.glyphDp
  | 3 => exact h.showDigit s.digits.tTenths
  | 4 => exact h.showGlyph s.params.glyph[11]
  | 5 => exact h.showDigit s.digits.pHundreds
  | 6 => exact h.showDigit s.digits.pTens
  | 7 => exact h.showDigit s.digits.pOnes
  | 8 => exact h.showGlyph s.params.glyph[10]
  | 9 => exact h

theorem advanceScan_withBitOrder (next : Fin 10) (o : BitOrder) (s : State) :
    advanceScan next (withBitOrder o s) = withBitOrder o (advanceScan next s) := by
  cases hh : s.hung <;> simp [advanceScan, withBitOrder, hh]

theorem Twin.tickIn (h : Twin o s t) (k : Fin 10) : Twin o (tickIn k s) (tickIn k t) := by
  refine (h.scanAction k).map (advanceScan (k + 1)) ?_ (advanceScan_withBitOrder _ o _)
  unfold advanceScan
  split <;> rfl

theorem Twin.tick (h : Twin o s t) : Twin o (tick s) (tick t) := by
  have hk : t.scan = s.scan := by rw [h.swapped]; rfl
  unfold Machine.tick
  rw [hk]
  exact h.tickIn s.scan

theorem Twin.runIsr (h : Twin o s t) : Twin o (runIsr s) (runIsr t) := by
  have ticked := (h.map irqEnter rfl rfl).tick
  simp only [Machine.runIsr, ticked.hung]
  split
  · exact ticked
  · exact ticked.map irqReturn rfl rfl

/-! ### Boundaries between µops -/

/-- Two boundaries that end the same way, in twins. -/
def TwinCrossings (o : BitOrder) : Crossing → Crossing → Prop
  | .goes s, .goes t => Twin o s t
  | .starved s, .starved t => Twin o s t
  | _, _ => False

theorem Twin.compareMatch (h : Twin o s t) : Twin o (compareMatch s) (compareMatch t) := h.map _ rfl rfl

theorem Twin.letGo (h : Twin o s t) : TwinCrossings o (letGo s) (letGo t) := by
  simp only [Machine.letGo, takeTick, h.irqReady]
  split
  · exact h.runIsr
  · exact h

theorem Twin.settle {last : State → Crossing} (fin : ∀ {s t}, Twin o s t → TwinCrossings o (last s) (last t)) :
    ∀ (l : List Bool) {s t : State}, Twin o s t → TwinCrossings o (settle l last s) (settle l last t) := by
  intro l
  induction l with
  | nil => intro s t h; exact fin (h.map (setArrivals []) rfl rfl)
  | cons e r ih =>
    intro s t h
    cases e with
    | true => exact ih h.compareMatch
    | false =>
      have ran := h.runIsr
      simp only [Machine.settle, h.irqReady, ran.hung]
      split
      · split
        · exact ran.map (setArrivals r) rfl rfl
        · exact ih ran
      · exact h.map (setArrivals r) rfl rfl

theorem Twin.pastMoves (h : Twin o s t) : TwinCrossings o (pastMoves s) (pastMoves t) := by
  have hs : t.sched = s.sched := by rw [h.swapped]; rfl
  unfold Machine.pastMoves
  rw [hs]
  split
  · exact h.letGo
  · exact h.compareMatch
  · simp only []
    split
    · exact Twin.settle Twin.compareMatch _ (h.map (setOnward _) rfl rfl)
    · exact Twin.settle Twin.letGo _ (h.map (setOnward _) rfl rfl)

theorem Twin.boundary (h : Twin o s t) : TwinCrossings o (boundary s) (boundary t) := by
  have ha : t.sched.arrivals = s.sched.arrivals := by rw [h.swapped]; rfl
  unfold Machine.boundary
  rw [ha]
  exact Twin.settle Twin.pastMoves _ h

/-! ### Operations -/

/-- What `Matched` can relate. -/
theorem matched_cases {r : State → State → Prop} {x y : Result} (h : Matched r x y) :
    (∃ s t, x = .next s ∧ y = .next t ∧ r s t) ∨ (∃ a, x = .fault a ∧ y = .fault a) ∨
    (∃ a, x = .refused a ∧ y = .refused a) := by
  cases x <;> cases y <;> simp_all [Matched]

theorem Matched.imp {r q : State → State → Prop} (hrq : ∀ s t, r s t → q s t) {x y : Result} (h : Matched r x y) :
    Matched q x y := by
  obtain ⟨s, t, rfl, rfl, hst⟩ | ⟨a, rfl, rfl⟩ | ⟨a, rfl, rfl⟩ := matched_cases h
  · exact hrq s t hst
  · rfl
  · rfl

theorem Matched.andThen {x y : Result} {k : State → Result} (h : Matched (Twin o) x y)
    (hk : ∀ {s t}, Twin o s t → Matched (Twin o) (k s) (k t)) : Matched (Twin o) (andThen x k) (andThen y k) := by
  obtain ⟨s, t, rfl, rfl, hst⟩ | ⟨a, rfl, rfl⟩ | ⟨a, rfl, rfl⟩ := matched_cases h
  · simp only [Machine.andThen, hst.hung]
    split
    · exact hst
    · exact hk hst
  · rfl
  · rfl

theorem TwinCrossings.afterBoundary {c d : Crossing} {k : State → Result} (h : TwinCrossings o c d)
    (hk : ∀ {s t}, Twin o s t → Matched (Twin o) (k s) (k t)) :
    Matched (Twin o) (afterBoundary c k) (afterBoundary d k) := by
  cases c <;> cases d
  case goes.goes s t => exact Matched.andThen (x := .next s) (y := .next t) h hk
  case starved.starved => exact h
  case goes.starved => exact h.elim
  case starved.goes => exact h.elim

theorem Twin.execCsa (h : Twin o s t) : Matched (Twin o) (execCsa s) (execCsa t) := by
  have hcs : t.cs = s.cs := by rw [h.swapped]; rfl
  unfold Machine.execCsa
  rw [hcs]
  split
  · exact h.map assertCs rfl rfl
  · rfl

theorem Twin.execCsd (h : Twin o s t) : Matched (Twin o) (execCsd s) (execCsd t) := by
  have hcs : t.cs = s.cs := by rw [h.swapped]; rfl
  unfold Machine.execCsd
  rw [hcs]
  split
  · exact h.map deassertCs rfl rfl
  · rfl

/-- R274's two requirements do not speak of the bit order. -/
theorem Twin.execTcfg (h : Twin o s t) : Matched (Twin o) (execTcfg s) (execTcfg t) := by
  obtain ⟨hhz, hcount, hw⟩ : t.params.scanHz = s.params.scanHz ∧ t.params.timerCount = s.params.timerCount ∧
      t.params.cmpW = s.params.cmpW := by rw [h.swapped]; exact ⟨rfl, rfl, rfl⟩
  unfold Machine.execTcfg
  rw [hhz, hcount, hw]
  split
  · rfl
  · split
    · exact h.map startTimer rfl rfl
    · rfl

theorem Twin.execPub (h : Twin o s t) (k : Byte) : Matched (Twin o) (execPub k s) (execPub k t) := by
  unfold Machine.execPub
  split
  · rename_i d _; exact h.map (publish d) rfl rfl
  · rfl

theorem Twin.uopEffect (h : Twin o s t) (u : Uop) : Matched (Twin o) (uopEffect u s) (uopEffect u t) := by
  cases u with
  | csa => exact h.execCsa
  | csd _ => exact h.execCsd
  | latd => exact h.map deassertLatch rfl rfl
  | lata => exact h.map assertLatch rfl rfl
  | xfer b _ => exact h.xfer b
  | compt => exact h.map compensateTemp rfl rfl
  | compp => exact h.map compensatePressure rfl rfl
  | pub k => exact h.execPub (selectorByte k)
  | tcfg => exact h.execTcfg
  | arm => exact h.map enableIrq rfl rfl
  | idle => exact h

theorem capture_withBitOrder (u : Uop) (o : BitOrder) (s : State) :
    capture u (withBitOrder o s) = withBitOrder o (capture u s) := by
  unfold capture
  split
  · rename_i k; cases k <;> rfl
  · rename_i c; cases c <;> rfl
  · rename_i c; cases c <;> rfl
  · rfl

theorem Twin.runUop (h : Twin o s t) (u : Uop) : Matched (Twin o) (runUop u s) (runUop u t) :=
  (h.uopEffect u).andThen fun hv => hv.map (capture u) (by simp) (capture_withBitOrder u o _)

theorem Twin.runUops : ∀ (us : List Uop) {s t : State}, Twin o s t → Matched (Twin o) (runUops us s) (runUops us t) := by
  intro us
  induction us with
  | nil => intro s t h; exact h
  | cons u rest ih =>
    intro s t h
    refine (h.runUop u).andThen fun hv => ?_
    cases rest with
    | nil => exact hv
    | cons _ _ => exact hv.boundary.afterBoundary ih

theorem Twin.execReadpair (h : Twin o s t) (c : Byte) : Matched (Twin o) (execReadpair c s) (execReadpair c t) := by
  obtain rfl := h.swapped
  unfold Machine.execReadpair
  split
  · rename_i pc _; exact h.runUops (readpairUops s.params pc)
  · rfl

theorem Twin.execReadtriple (h : Twin o s t) (c : Byte) :
    Matched (Twin o) (execReadtriple c s) (execReadtriple c t) := by
  obtain rfl := h.swapped
  unfold Machine.execReadtriple
  split
  · rename_i tc _; exact h.runUops (readtripleUops s.params tc)
  · rfl

/-- Twins stay twins under every operation of the opcode table, or stop for the same reason. -/
theorem Twin.exec (h : Twin o s t) (i : Instr) : Matched (Twin o) (exec i s) (exec i t) := by
  obtain rfl := h.swapped
  cases i with
  | idle => exact h.uopEffect .idle
  | csa => exact h.uopEffect .csa
  | csd => exact h.uopEffect (.csd .nothing)
  | latd => exact h.uopEffect .latd
  | lata => exact h.uopEffect .lata
  | xfer b => exact h.uopEffect (.xfer b none)
  | compt => exact h.uopEffect .compt
  | compp => exact h.uopEffect .compp
  | tcfg => exact h.uopEffect .tcfg
  | arm => exact h.uopEffect .arm
  | pub k => exact h.execPub k
  | readpair c => exact h.execReadpair c
  | readtriple c => exact h.execReadtriple c
  | config => exact h.runUops configUops
  | loadcal => exact h.runUops (loadcalUops s.params)
  | boot => exact h.runUops (bootUops s.params)
  | poll =>
    exact (h.map (setIdles (idleRest s.sched.idles)) rfl rfl).runUops
      (pollUops s.params ++ List.replicate (idleCount s.sched.idles) .idle)
  | wireCfg => exact h.runUops configUops
  | wirePair88 d0 d1 d2 d3 => exact h.runUops (pairFrame .c88 d0 d1 d2 d3)
  | wirePair8A d0 d1 d2 d3 => exact h.runUops (pairFrame .c8A d0 d1 d2 d3)
  | wirePair8E d0 d1 d2 d3 => exact h.runUops (pairFrame .c8E d0 d1 d2 d3)
  | wireTriFA d0 d1 d2 => exact h.runUops (tripleFrame .cFA d0 d1 d2)
  | wireTriFB d0 d1 d2 => exact h.runUops (tripleFrame .cFB d0 d1 d2)
  | showg g => exact h.showGlyph g
  | wireGlyph g => exact h.showGlyph g
  | tick => exact h.tick
  | scan0 => exact h.tickIn 0
  | scan1 => exact h.tickIn 1
  | scan2 => exact h.tickIn 2
  | scan3 => exact h.tickIn 3
  | scan4 => exact h.tickIn 4
  | scan5 => exact h.tickIn 5
  | scan6 => exact h.tickIn 6
  | scan7 => exact h.tickIn 7
  | scan8 => exact h.tickIn 8
  | scan9 => exact h.tickIn 9

/-! ### Steps -/

theorem mseqUop_bitOrder (p : Params) (o : BitOrder) (m : MSeq) : mseqUop { p with bitOrder := o } m = mseqUop p m := by
  cases m <;> rfl

@[simp] theorem advanceMseq_clock (s : State) : (advanceMseq s).sched.clock = s.sched.clock := by
  unfold advanceMseq
  simp only []
  split <;> simp

theorem Twin.mainUop (h : Twin o s t) : Matched (Twin o) (mainUop s) (mainUop t) := by
  have hu : mseqUop t.params t.mseq = mseqUop s.params s.mseq := by
    rw [h.swapped]; exact mseqUop_bitOrder s.params o s.mseq
  unfold Machine.mainUop
  rw [hu]
  exact (h.runUop _).andThen fun hv => hv.map advanceMseq (advanceMseq_clock _) rfl

theorem Twin.ownMove (h : Twin o s t) : Matched (Twin o) (ownMove s) (ownMove t) := by
  have hc : t.ctx = s.ctx := by rw [h.swapped]; rfl
  unfold Machine.ownMove
  rw [hc]
  split
  · exact h.mainUop
  · exact h.map irqReturn rfl rfl

theorem Twin.runNext (h : Twin o s t) : Matched (Twin o) (runNext s) (runNext t) := by
  have hb : t.program.bytes = s.program.bytes := by rw [h.swapped]; rfl
  have hf : fetched t = fetched s := by rw [h.swapped]; rfl
  unfold Machine.runNext
  rw [hb, hf]
  split
  · exact h.ownMove
  · split
    · rename_i i rest _; exact (h.map (setBytes rest) rfl rfl).exec i
    · rfl

theorem Twin.blockMove (h : Twin o s t) : Matched (Twin o) (blockMove s) (blockMove t) := by
  simp only [Machine.blockMove, h.hung, h.irqReady]
  split
  · exact h
  · split
    · exact h.runIsr
    · exact h.runNext

theorem Twin.step (h : Twin o s t) : Matched (Twin o) (step s) (step t) := by
  have hn : t.sched.nextArrival = s.sched.nextArrival := by rw [h.swapped]; rfl
  have taken := h.map takeArrival (afterArrival_frame s.sched).1 rfl
  unfold Machine.step
  rw [hn]
  split
  · exact taken.compareMatch
  · exact taken.blockMove

end

/-- Settles O14: a state whose clock always runs and the same state with the other bit order are twins, and a step takes twins
to twins or stops both for the same reason. -/
theorem stepsIndependentOfBitOrder : Obligations.StepsIndependentOfBitOrder := fun _ _ hc =>
  Matched.imp (fun _ _ h => h.swapped) (Twin.step ⟨hc, rfl⟩)

end Sys2Proof.Machine

namespace Sys2Proof.Machine

open Sys2Proof

/-! ### The sensor's reply (R61, R66) -/

/-- Whether reply byte `k` of command `c` exists (R61): one of the five read commands, and `k` below its reply length. -/
theorem lt_replyLength_iff (c : Byte) (k : Nat) : k < replyLength c ↔
    (c = 0x88#8 ∨ c = 0x8A#8 ∨ c = 0x8E#8) ∧ k < 4 ∨ (c = 0xFA#8 ∨ c = 0xFB#8) ∧ k < 3 := by
  simp only [replyLength, ← BitVec.toNat_inj, BitVec.toNat_ofNat]
  split <;> simp_all

theorem cleanFrame_cons_iff (p : Params) (c : Byte) (ds : List Byte) :
    cleanFrame p (c :: ds) = true ↔ ds.length < replyLength c ∧ ds = List.replicate ds.length p.dummy := by
  simp [cleanFrame, List.eq_replicate_iff]

/-- Settles O7: an envelope `c :: ds` is clean exactly if `ds` is as many copies of `DUMMY` as one of R61's reply positions. -/
theorem sensorReplyContract : Obligations.SensorReplyContract := by
  intro p moment due
  have hdue : ∀ c k, due c k ↔ k < replyLength c := fun c k => (lt_replyLength_iff c k).symm
  refine ⟨fun c k h => ?_, fun env h => ?_⟩
  · have clean : cleanFrame p (c :: List.replicate k p.dummy) = true := by
      simpa [cleanFrame_cons_iff] using (hdue c k).1 h
    simp [sensorReply, clean]
  · cases env with
    | nil => rfl
    | cons c ds =>
      have foreign : cleanFrame p (c :: ds) ≠ true := fun hc => by
        obtain ⟨hlen, hds⟩ := (cleanFrame_cons_iff p c ds).1 hc
        exact h c ds.length ((hdue c _).2 hlen) (congrArg (c :: ·) hds)
      simp [sensorReply, foreign]

/-! ### Digits above the glyph table (R72, R105) -/

/-- A completed `SHOW` as one update of the state (R204). -/
theorem showGlyph_eq {g : Byte} {s : State} (h : clockGives 8 s = true) (hs : s.hung = false) :
    showGlyph g s = glyphFrameEnd g s := by
  have gives : clockGives 8 (deassertLatch s) = true := h
  have sent := xfer_eq (b := g) gives
  have running : (xfer g (deassertLatch s)).hung = false := by rw [sent]; exact hs
  have events : s.hist ++ [.latch .deasserted] ++ [.xfer g (nextReply s)] ++ [.latch .asserted, .commit g] =
      s.hist ++ [.latch .deasserted, .xfer g (nextReply s), .latch .asserted, .commit g] := by simp
  simp only [showGlyph, running, Bool.false_eq_true, if_false]
  rw [sent, glyphFrameEnd, ← events]
  rfl

/-- `SHOW` of a digit outside the table takes one free byte and shows it. -/
theorem showDigit_above {d : Byte} {s : State} (hd : 12 ≤ d.toNat) (h : clockGives 8 s = true) (hs : s.hung = false) :
    showDigit d s = glyphFrameEnd (Config.anyByte s.draws) { s with draws := s.draws + 1 } := by
  have hg : glyphNow d s = Config.anyByte s.draws := by simp [glyphNow, glyphOr, Nat.not_lt.2 hd]
  have hr : glyphRead d s = { s with draws := s.draws + 1 } := by simp [glyphRead, inGlyphTable, Nat.not_lt.2 hd]
  rw [showDigit, hg, hr]
  exact showGlyph_eq h hs

/-- A tick whose action leaves a running block advances `SCAN` (R208). -/
theorem tickIn_eq {k : Fin 10} {s t : State} (h : scanAction k s = t) (ht : t.hung = false) :
    tickIn k s = { t with scan := k + 1 } := by
  simp [tickIn, advanceScan, h, ht]

/-- Settles O32: in each of the six digit states the action is `SHOW` of that digit, which is above the table. -/
theorem digitsAboveTheTableShowAFreeGlyph : Obligations.DigitsAboveTheTableShowAFreeGlyph := by
  intro s hs hc
  have row {k : Fin 10} {d : Byte} (hk : scanAction k s = showDigit d s) (hd : 12 ≤ d.toNat) :
      (.next (tickIn k s) : Result) =
        .next { glyphFrameEnd (Config.anyByte s.draws) { s with draws := s.draws + 1 } with scan := k + 1 } := by
    rw [tickIn_eq (hk.trans (showDigit_above hd hc hs)) hs]
  exact ⟨row rfl, row rfl, row rfl, row rfl, row rfl, row rfl⟩

/-! ### Operand assembly (R62, R63, R96, R97) -/

theorem word16_toNat (lo hi : Byte) : (word16 lo hi).toNat = hi.toNat * 256 + lo.toNat := by
  rw [word16, BitVec.toNat_append, ← Nat.shiftLeft_add_eq_or_of_lt lo.isLt, Nat.shiftLeft_eq]

theorem sample20_toNat (b0 b1 b2 : Byte) :
    (sample20 b0 b1 b2).toNat = b0.toNat * 4096 + b1.toNat * 16 + b2.toNat / 16 := by
  have low : (b2.extractLsb' 4 4).toNat = b2.toNat / 16 := by
    rw [BitVec.extractLsb'_toNat, Nat.shiftRight_eq_div_pow]
    have := b2.isLt
    omega
  rw [sample20, BitVec.toNat_append, BitVec.toNat_append, ← Nat.shiftLeft_add_eq_or_of_lt b1.isLt,
    ← Nat.shiftLeft_add_eq_or_of_lt (b2.extractLsb' 4 4).isLt, Nat.shiftLeft_eq, Nat.shiftLeft_eq, low]
  omega

/-- Settles O15: both assemblies concatenate, so they are positional sums; a coefficient's sum from `2 ^ 15` on is negative. -/
theorem operandAssembly : Obligations.OperandAssembly := by
  refine ⟨fun lo hi => ?_, fun b0 b1 b2 => ⟨sample20_toNat b0 b1 b2, ?_⟩⟩
  · rw [BitVec.toInt_eq_toNat_cond, word16_toNat]
    split <;> split <;> omega
  · rw [sample20_toNat]
    omega

end Sys2Proof.Machine

namespace Sys2Proof

/-- A byte is the number it is read as. -/
theorem byte_eq_ofNat {c : Byte} {n : Nat} (h : c.toNat = n) : c = BitVec.ofNat 8 n := by
  simp [← h]

/-! ### The decoder of operation codes (R101, R102) -/

/-- A `U0` code is its operation's whole encoding. -/
theorem decodeU0_some {n : Nat} {i : Instr} (h : decodeU0 n = some i) :
    i.wf = true ∧ i.space = .code ∧ encode i = [BitVec.ofNat 8 n] := by
  unfold decodeU0 at h
  split at h <;> cases h <;> exact ⟨rfl, rfl, rfl⟩

/-- A `U1` code and its operand byte are its operation's whole encoding. -/
theorem decodeU1_some {n : Nat} {f : Byte → Instr} (h : decodeU1 n = some f) (b : Byte) :
    (f b).space = .code ∧ encode (f b) = [BitVec.ofNat 8 n, b] := by
  unfold decodeU1 at h
  split at h <;> cases h <;> exact ⟨rfl, rfl⟩

/-- R102: a `U1` code with an operand that its operation allows. -/
theorem decodeCode_of_wf {c b : Byte} {f : Byte → Instr} (h0 : decodeU0 c.toNat = none) (h1 : decodeU1 c.toNat = some f)
    (hwf : (f b).wf = true) (r : List Byte) : decodeCode (c :: b :: r) = .ok (f b) r := by
  simp [decodeCode, h0, h1, hwf]

/-- R102: a `U1` code with an operand outside the listed set. -/
theorem decodeCode_of_illFormed {c b : Byte} {f : Byte → Instr} (h0 : decodeU0 c.toNat = none)
    (h1 : decodeU1 c.toNat = some f) (hwf : (f b).wf = false) (r : List Byte) :
    decodeCode (c :: b :: r) = .reject (operandError (f b)) := by
  simp [decodeCode, h0, h1, hwf]

/-- What `decodeCode` can read: a `U0` code, or a `U1` code with an operand that R102 allows. -/
theorem decodeCode_ok {bs rest : List Byte} {i : Instr} (h : decodeCode bs = .ok i rest) :
    (∃ c, decodeU0 c.toNat = some i ∧ bs = c :: rest) ∨
    (∃ c b f, decodeU1 c.toNat = some f ∧ i = f b ∧ (f b).wf = true ∧ bs = c :: b :: rest) := by
  unfold decodeCode at h
  split at h
  · cases h
  · rename_i c r
    split at h
    · rename_i hi; cases h; exact .inl ⟨c, hi, rfl⟩
    · split at h
      · cases h
      · rename_i f hf
        split at h
        · cases h
        · rename_i b r'
          split at h
          · rename_i hwf; cases h; exact .inr ⟨c, b, f, hf, rfl, hwf, rfl⟩
          · cases h

/-- No byte, no operation, in any space. -/
theorem decode_nil (sp : Space) : decode sp [] = .reject .empty := by
  cases sp <;> rfl

/-! ### Decoding and encoding -/

/-- Settles O1: the first byte of an encoding selects the operation's arm of its space's decoder, which evaluates whatever follows;
only at the five `U1` codes does the decoder also ask whether the operand is allowed, which well-formedness grants. -/
theorem decodeOfEncodeIsTheOperation : Obligations.DecodeOfEncodeIsTheOperation := by
  intro i rest hwf
  cases i with
  | xfer b => exact decodeCode_of_wf (c := 0x05#8) rfl rfl hwf rest
  | readpair c => exact decodeCode_of_wf (c := 0x11#8) rfl rfl hwf rest
  | readtriple c => exact decodeCode_of_wf (c := 0x12#8) rfl rfl hwf rest
  | pub k => exact decodeCode_of_wf (c := 0x22#8) rfl rfl hwf rest
  | showg g => exact decodeCode_of_wf (c := 0x30#8) rfl rfl hwf rest
  | _ => rfl

/-- The bytes read are an operation's encoding, in a space that is the operation's own. -/
def ReadsEncoding (sp : Space) (bs : List Byte) (i : Instr) (rest : List Byte) : Prop :=
  i.wf = true ∧ i.space = sp ∧ bs = encode i ++ rest

theorem decodeCode_readsEncoding {bs rest : List Byte} {i : Instr} (h : decodeCode bs = .ok i rest) :
    ReadsEncoding .code bs i rest := by
  obtain ⟨c, hc, rfl⟩ | ⟨c, b, f, hf, rfl, hwf, rfl⟩ := decodeCode_ok h
  · obtain ⟨hwf, hsp, henc⟩ := decodeU0_some hc
    exact ⟨hwf, hsp, by simp [henc]⟩
  · obtain ⟨hsp, henc⟩ := decodeU1_some hf b
    exact ⟨hwf, hsp, by simp [henc]⟩

theorem decodeSensorFrame_readsEncoding {bs rest : List Byte} {i : Instr} (h : decodeSensorFrame bs = .ok i rest) :
    ReadsEncoding .sensorFrame bs i rest := by
  unfold decodeSensorFrame at h
  split at h
  · cases h
  · split at h
    · rename_i hc
      split at h
      · rename_i hd; cases h; cases byte_eq_ofNat hc; cases hd; exact ⟨rfl, rfl, rfl⟩
      · cases h
    all_goals cases h
    all_goals rename_i hc; cases byte_eq_ofNat hc; exact ⟨rfl, rfl, rfl⟩

theorem decodeGlyphFrame_readsEncoding {bs rest : List Byte} {i : Instr} (h : decodeGlyphFrame bs = .ok i rest) :
    ReadsEncoding .glyphFrame bs i rest := by
  cases bs <;> cases h
  exact ⟨rfl, rfl, rfl⟩

theorem decodeScanState_readsEncoding {bs rest : List Byte} {i : Instr} (h : decodeScanState bs = .ok i rest) :
    ReadsEncoding .scanState bs i rest := by
  unfold decodeScanState at h
  split at h
  · cases h
  · split at h <;> cases h
    all_goals rename_i hv; cases byte_eq_ofNat hv; exact ⟨rfl, rfl, rfl⟩

/-- Settles O2: each space's decoder reads only encodings of its own space's well-formed operations. -/
theorem decodedBytesAreTheEncoding : Obligations.DecodedBytesAreTheEncoding := by
  intro sp bs rest i h
  cases sp with
  | code => exact decodeCode_readsEncoding h
  | sensorFrame => exact decodeSensorFrame_readsEncoding h
  | glyphFrame => exact decodeGlyphFrame_readsEncoding h
  | scanState => exact decodeScanState_readsEncoding h

/-! ### Rejections by name (R102, R103, R104) -/

/-- The codes of R101's table. -/
def codeTable : List Byte :=
  [0x00#8, 0x01#8, 0x02#8, 0x03#8, 0x04#8, 0x05#8, 0x10#8, 0x11#8, 0x12#8, 0x13#8, 0x20#8, 0x21#8, 0x22#8, 0x30#8, 0x31#8,
   0x40#8, 0x41#8, 0x42#8, 0x43#8]

theorem decodeU0_listed {n : Nat} {i : Instr} (h : decodeU0 n = some i) : BitVec.ofNat 8 n ∈ codeTable := by
  unfold decodeU0 at h
  split at h <;> cases h <;> decide

theorem decodeU1_listed {n : Nat} {f : Byte → Instr} (h : decodeU1 n = some f) : BitVec.ofNat 8 n ∈ codeTable := by
  unfold decodeU1 at h
  split at h <;> cases h <;> decide

theorem decodeCode_of_unlisted {c : Byte} (h : c ∉ codeTable) (r : List Byte) :
    decodeCode (c :: r) = .reject (.unknownCode c) := by
  have unlisted : BitVec.ofNat 8 c.toNat ∉ codeTable := by simpa using h
  have h0 : decodeU0 c.toNat = none := Option.eq_none_iff_forall_ne_some.2 fun _ hi => unlisted (decodeU0_listed hi)
  have h1 : decodeU1 c.toNat = none := Option.eq_none_iff_forall_ne_some.2 fun _ hf => unlisted (decodeU1_listed hf)
  simp [decodeCode, h0, h1]

theorem decodeSensorFrame_of_foreign {c : Byte} (h : c ∉ [0x74#8, 0x88#8, 0x8A#8, 0x8E#8, 0xFA#8, 0xFB#8])
    (r : List Byte) : decodeSensorFrame (c :: r) = .reject .unknownFrame := by
  unfold decodeSensorFrame
  simp only []
  split
  case h_7 => rfl
  all_goals rename_i hc; cases byte_eq_ofNat hc; exact absurd (by decide) h

theorem decodeScanState_of_gt {v : Byte} (h : 9 < v.toNat) (r : List Byte) :
    decodeScanState (v :: r) = .reject (.scanAboveNine v) := by
  unfold decodeScanState
  simp only []
  split
  case h_11 => rfl
  all_goals omega

/-- Settles O3: a code in neither of R101's two tables is unknown; an ill-formed operand is rejected under its operation's
own name; and the other two spaces list their first bytes. -/
theorem codesOutsideTheTableAreRejected : Obligations.CodesOutsideTheTableAreRejected := by
  refine ⟨fun _ r h => decodeCode_of_unlisted h r, fun c r h => ?_, fun c r h => ?_, fun k r h => ?_,
    fun _ r h => decodeSensorFrame_of_foreign h r, fun _ r h => decodeScanState_of_gt h r⟩
  · have ill : (Instr.readpair c).wf = false := by simpa [Instr.wf, pairCommandOk, and_assoc] using h
    exact decodeCode_of_illFormed (c := 0x11#8) rfl rfl ill r
  · have ill : (Instr.readtriple c).wf = false := by simpa [Instr.wf, tripleCommandOk] using h
    exact decodeCode_of_illFormed (c := 0x12#8) rfl rfl ill r
  · have ill : (Instr.pub k).wf = false := by simpa [Instr.wf, digitSelectorOk] using h
    exact decodeCode_of_illFormed (c := 0x22#8) rfl rfl ill r

/-- Settles O4: each word evaluates; the order of spaces that reads it is the model's (log entry 7). -/
theorem writtenOutWordsDecode : Obligations.WrittenOutWordsDecode := by
  unfold Obligations.WrittenOutWordsDecode
  decide

end Sys2Proof

namespace Sys2Proof.Machine

open Sys2Proof

/-! ### Operands outside the listed sets (R102) -/

theorem pairCmdOf_of_not_ok {c : Byte} (h : pairCommandOk c = false) : pairCmdOf c = none := by
  simp only [pairCommandOk, ← BitVec.toNat_inj, BitVec.toNat_ofNat] at h
  unfold pairCmdOf
  split <;> simp_all

theorem tripleCmdOf_of_not_ok {c : Byte} (h : tripleCommandOk c = false) : tripleCmdOf c = none := by
  simp only [tripleCommandOk, ← BitVec.toNat_inj, BitVec.toNat_ofNat] at h
  unfold tripleCmdOf
  split <;> simp_all

theorem digitOf_of_not_ok {k : Byte} (h : digitSelectorOk k = false) : digitOf k = none := by
  simp only [digitSelectorOk, decide_eq_false_iff_not] at h
  unfold digitOf
  split
  case h_7 => rfl
  all_goals omega

/-- Settles O22: only three operations can be ill-formed, and each looks its operand up in R102's set. -/
theorem badOperandsAreRefused : Obligations.BadOperandsAreRefused := by
  intro i s h
  cases i with
  | readpair c => simp [exec, execReadpair, pairCmdOf_of_not_ok h]
  | readtriple c => simp [exec, execReadtriple, tripleCmdOf_of_not_ok h]
  | pub k => simp [exec, execPub, digitOf_of_not_ok h]
  | _ => cases h

/-! ### Placed operations (R102, R241) -/

/-- When no compare-match comes and no tick is taken, a step of a running block is the context's next operation. -/
theorem step_eq_runNext {s : State} (hs : s.hung = false) (hr : irqReady s = false) (ha : s.sched.nextArrival = false) :
    step s = runNext (takeArrival s) := by
  have hr' : irqReady (takeArrival s) = false := hr
  simp [step, blockMove, ha, hs, hr']

theorem runNext_of_fetched {s : State} {i : Instr} {rest : List Byte} (h : fetched s = .ok i rest) :
    runNext s = exec i (setBytes rest s) := by
  unfold runNext
  split
  · rename_i hb; simp [fetched, hb, decode_nil] at h
  · simp [h]

theorem runNext_of_rejected {s : State} {e : DecodeError} (hb : s.program.bytes ≠ []) (h : fetched s = .reject e) :
    runNext s = .refused (.undecodable e) := by
  unfold runNext
  split
  · rename_i hn; exact absurd hn hb
  · simp [h]

/-- Settles O54: the step is the context's next operation, which is the placed one. -/
theorem stepRunsThePlacedOperation : Obligations.StepRunsThePlacedOperation := fun s _ _ hs hr hd ha =>
  (step_eq_runNext hs hr ha).trans (runNext_of_fetched (s := takeArrival s) hd)

/-- Settles O55: the step is the context's next operation, which the decoder rejects. -/
theorem stepRefusesUndecodableBytes : Obligations.StepRefusesUndecodableBytes := fun s _ hs hr ha hb hd =>
  (step_eq_runNext hs hr ha).trans (runNext_of_rejected (s := takeArrival s) hb hd)

/-! ### Sensor frames with nothing to disturb them (R91 to R93) -/

/-- The reply in a frame opened from `s` after the bytes `sent`: the sensor's answer at that exchange's draw (R66). -/
def replyAfter (s : State) (sent : List Byte) : Byte := sensorReply s.params sent (s.draws + sent.length)

/-- A reply that `MAIN` keeps in a slot (R142, R143). -/
def Replies.keep (r : Replies) (v : Byte) : Option Slot → Replies
  | none => r
  | some .r0 => { r with r0 := v }
  | some .r1 => { r with r1 := v }
  | some .r2 => { r with r2 := v }
  | some .r3 => { r with r3 := v }

/-- Inside a sensor frame opened from `s`, nothing having disturbed it: the bytes sent, the last of them with its reply, what
`MAIN` has kept, and the events so far. -/
def inFrame (s : State) (sent : List Byte) (last reply : Byte) (kept : Replies) (events : List Event) : State :=
  { s with
    cs := .asserted
    env := sent
    sr := reply
    cnt := 8
    done := true
    dsr := last
    ieSaveX := s.ie
    draws := s.draws + sent.length
    replies := kept
    sched := clockAfter (8 * sent.length) s
    hist := s.hist ++ events }

/-- Going on with nothing more to do changes no outcome. -/
theorem andThen_next_self (o : Result) : andThen o .next = o := by
  cases o <;> simp [andThen]

section

variable {s : State} {sent : List Byte} {last reply : Byte} {kept : Replies} {events : List Event}

/-- The first byte of a frame, right after `CSA`. -/
theorem xfer_assertCs (c : Byte) (hc : clockGives 8 s = true) :
    xfer c (assertCs s) = inFrame s [c] c (replyAfter s []) s.replies [.cs .asserted, .xfer c (replyAfter s [])] := by
  have hc' : clockGives 8 (assertCs s) = true := hc
  have events : s.hist ++ [.cs .asserted] ++ [.xfer c (replyAfter s [])] =
      s.hist ++ [.cs .asserted, .xfer c (replyAfter s [])] := by simp
  rw [xfer_eq hc', inFrame, ← events]
  rfl

/-- Every later byte, with what `MAIN` keeps of its reply. -/
theorem xfer_inFrame (b : Byte) (k : Option Slot) (hc : clockGives 8 (inFrame s sent last reply kept events) = true) :
    capture (.xfer b k) (xfer b (inFrame s sent last reply kept events)) =
      inFrame s (sent ++ [b]) b (replyAfter s sent) (kept.keep (replyAfter s sent) k)
        (events ++ [.xfer b (replyAfter s sent)]) := by
  have clock : clockAfter 8 (inFrame s sent last reply kept events) = clockAfter (8 * (sent ++ [b]).length) s := by
    rw [clockAfter_add (n := 8 * sent.length) rfl, List.length_append, Nat.mul_add]
    rfl
  have draws : s.draws + (sent ++ [b]).length = s.draws + sent.length + 1 := by simp [Nat.add_assoc]
  rw [xfer_eq hc, clock, inFrame, inFrame, draws, ← List.append_assoc]
  cases k with
  | none => rfl
  | some k => cases k <;> rfl

variable {n : Nat} (hs : s.hung = false) (hu : Undisturbed s) (hc : clockGives n s = true)

include hs in
/-- `CSD` ends the frame, and `MAIN` assembles its results. -/
theorem runUops_close (d : Dest) : runUops [.csd d] (inFrame s sent last reply kept events) =
    .next (capture (.csd d) (deassertCs (inFrame s sent last reply kept events))) := by
  have closed := runUop_csd (d := d) (s := inFrame s sent last reply kept events) hs rfl
  rw [runUops, closed]
  exact andThen_next_self _

include hs hu hc

/-- `CSA` and the first byte open a frame. -/
theorem runUops_open (hcs : s.cs = .deasserted) (hn : 8 ≤ n) (c : Byte) (rest : List Uop) :
    runUops (.csa :: .xfer c none :: rest) s =
      runUops rest (inFrame s [c] c (replyAfter s []) s.replies [.cs .asserted, .xfer c (replyAfter s [])]) := by
  have hc : clockGives 8 s = true := clockGives_mono hc hn
  have sent : runUop (.xfer c none) (assertCs s) =
      .next (inFrame s [c] c (replyAfter s []) s.replies [.cs .asserted, .xfer c (replyAfter s [])]) :=
    (runUop_xfer (s := assertCs s) hs hc).trans (congrArg _ (xfer_assertCs c hc))
  rw [runUops_cons (runUop_csa hs hcs) hs hu]
  exact runUops_cons sent hs hu

/-- Inside a frame an `XFER` appends its byte, and the rest of the list goes on from there. -/
theorem runUops_xfer_inFrame (hn : 8 * sent.length + 8 ≤ n) (b : Byte) (k : Option Slot) (rest : List Uop) :
    runUops (.xfer b k :: rest) (inFrame s sent last reply kept events) =
      runUops rest (inFrame s (sent ++ [b]) b (replyAfter s sent) (kept.keep (replyAfter s sent) k)
        (events ++ [.xfer b (replyAfter s sent)])) := by
  have hc' : clockGives 8 (inFrame s sent last reply kept events) = true :=
    clockGives_after (clockGives_mono hc hn) rfl
  have running : (inFrame s sent last reply kept events).hung = false := hs
  have exchanged := (runUop_xfer running hc').trans (congrArg _ (xfer_inFrame b k hc'))
  exact runUops_cons exchanged hs hu

/-- `WIRE.CFG` and `CONFIG` (R91): the byte `43` is no reply position of a frame, so its reply is a free byte (R66). -/
theorem runUops_configUops (hcs : s.cs = .deasserted) (hn : 16 ≤ n) :
    runUops configUops s = .next (configFrameEnd s) := by
  have free : replyAfter s [0x74#8] = Config.anyByte (s.draws + 1) := by
    simp [replyAfter, sensorReply, cleanFrame, replyLength]
  have opened := runUops_open hs hu hc hcs (by omega)
  simp (disch := simp; omega) only [configUops, opened, runUops_xfer_inFrame hs hu hc, runUops_close hs, free]
  simp only [deassertCs, record, inFrame, configFrameEnd, configTrace, List.append_assoc]
  rfl

/-- `WIRE.PAIR` rows, and `READPAIR` when the dummy bytes are `DUMMY` (R92, R142). -/
theorem runUops_pairFrame (hcs : s.cs = .deasserted) (hn : 40 ≤ n) (c : PairCmd) (d0 d1 d2 d3 : Byte) :
    runUops (pairFrame c d0 d1 d2 d3) s = .next (storePair c (pairFrameEnd (pairByte c) d0 d1 d2 d3
      (replyAfter s [pairByte c]) (replyAfter s [pairByte c, d0]) (replyAfter s [pairByte c, d0, d1])
      (replyAfter s [pairByte c, d0, d1, d2]) s)) := by
  have opened := runUops_open hs hu hc hcs (by omega)
  simp (disch := simp; omega) only [pairFrame, opened, runUops_xfer_inFrame hs hu hc, runUops_close hs]
  simp only [deassertCs, record, inFrame, pairFrameEnd, List.append_assoc]
  rfl

/-- `WIRE.TRI` rows, and `READTRIPLE` when the dummy bytes are `DUMMY` (R93, R143). -/
theorem runUops_tripleFrame (hcs : s.cs = .deasserted) (hn : 32 ≤ n) (c : TripleCmd) (d0 d1 d2 : Byte) :
    runUops (tripleFrame c d0 d1 d2) s = .next (storeSample c (tripleFrameEnd (tripleByte c) d0 d1 d2
      (replyAfter s [tripleByte c]) (replyAfter s [tripleByte c, d0]) (replyAfter s [tripleByte c, d0, d1]) s)) := by
  have opened := runUops_open hs hu hc hcs (by omega)
  simp (disch := simp; omega) only [tripleFrame, opened, runUops_xfer_inFrame hs hu hc, runUops_close hs]
  simp only [deassertCs, record, inFrame, tripleFrameEnd, List.append_assoc]
  rfl

end

/-- Settles O19: a row's bytes are those of `configUops`, of a pair frame or of a triple frame, and its results are what the
frame's `CSD` stores. -/
theorem wireSensorFrames : Obligations.WireSensorFrames := by
  intro s d0 d1 d2 d3 hs hu hcs
  have pair (hc : clockGives 40 s = true) (c : PairCmd) := runUops_pairFrame hs hu hc hcs le_rfl c d0 d1 d2 d3
  have triple (hc : clockGives 32 s = true) (c : TripleCmd) := runUops_tripleFrame hs hu hc hcs le_rfl c d0 d1 d2
  exact ⟨fun hc => runUops_configUops hs hu hc hcs le_rfl, fun hc => ⟨pair hc .c88, pair hc .c8A, pair hc .c8E⟩,
    fun hc => ⟨triple hc .cFA, triple hc .cFB⟩⟩

end Sys2Proof.Machine

namespace Sys2Proof.Machine

open Sys2Proof

/-! ### The eight pulses of a byte (R122) -/

/-- A shift register after the pulses `l` of the byte `v`. -/
def shiftBits (o : BitOrder) (v : Byte) (l : List (Fin 8)) (r : Byte) : Byte :=
  l.foldl (fun r k => shiftIn o r (lineBit o v k)) r

/-- Pulses shift the incoming byte's bits into `SR`. -/
theorem pulse_foldl_sr (b rin : Byte) (l : List (Fin 8)) (s : State) :
    (l.foldl (pulse b rin) s).sr = shiftBits s.params.bitOrder rin l s.sr := by
  induction l generalizing s with
  | nil => rfl
  | cons k l ih => exact ih (pulse b rin s k)

/-- Pulses shift the outgoing byte's bits into `DSR` (R68). -/
theorem pulse_foldl_dsr (b rin : Byte) (l : List (Fin 8)) (s : State) :
    (l.foldl (pulse b rin) s).dsr = shiftBits s.params.bitOrder b l s.dsr := by
  induction l generalizing s with
  | nil => rfl
  | cons k l ih => exact ih (pulse b rin s k)

/-- Most significant bit first, a bit enters at the low end and the others move up. -/
theorem getElem_shiftIn_msbFirst (r : Byte) (x : Bool) {i : Nat} (hi : i < 8) :
    (shiftIn .msbFirst r x)[i] = if i = 0 then x else r[i - 1] := by
  cases x <;> interval_cases i <;> simp [shiftIn]

/-- Least significant bit first, a bit enters at the high end and the others move down. -/
theorem getElem_shiftIn_lsbFirst (r : Byte) (x : Bool) {i : Nat} (hi : i < 8) :
    (shiftIn .lsbFirst r x)[i] = if h : i = 7 then x else r[i + 1] := by
  cases x <;> interval_cases i <;> simp [shiftIn]

/-- Eight pulses replace a register's contents by the byte on the line: each bit entered at its pulse and has since moved to the
position that the order gives it. -/
theorem shiftBits_allPulses (o : BitOrder) (v r : Byte) : shiftBits o v allPulses r = v := by
  refine BitVec.eq_of_getElem_eq fun i hi => ?_
  cases o with
  | msbFirst => interval_cases i <;> simp [shiftBits, allPulses, getElem_shiftIn_msbFirst, lineBit, bitPos]
  | lsbFirst => interval_cases i <;> simp [shiftBits, allPulses, getElem_shiftIn_lsbFirst, lineBit, bitPos]

/-- Settles O8: eight pulses leave in each register the byte shifted into it, and count to 8 from the 0 of `xferStart`. -/
theorem eightPulsesComposeToTheByte : Obligations.EightPulsesComposeToTheByte := fun b rin s =>
  ⟨(pulse_foldl_sr b rin allPulses _).trans (shiftBits_allPulses _ rin _),
    (pulse_foldl_dsr b rin allPulses _).trans (shiftBits_allPulses _ b _),
    Fin.ext (pulses_cnt le_rfl b rin (by simp))⟩

/-! ### One byte transfer (R121, R124) -/

/-- Settles O6: with eight pulses given, `XFER` is the one update of R121. -/
theorem xferExchangesOneByte : Obligations.XferExchangesOneByte := fun _ _ h => congrArg _ (xfer_eq h)

/-- A hung `XFER` has counted the pulses that came. -/
theorem xfer_hangs_cnt_val {b : Byte} {s : State} (h : clockGives 8 s = false) : (xfer b s).cnt.val = pulsesLeft s := by
  have counted := pulses_cnt (pulsesLeft_lt h).le b (incoming s) (s := xferStart b s) (by simp)
  simpa [xfer, h, xferHang] using counted

/-- Settles O9: with fewer than eight pulses left `XFER` hangs, having counted them; the rest is what no `XFER` writes, and `ENV`
and `HIST`, which only a completed one extends. -/
theorem stalledClockHangsXfer : Obligations.StalledClockHangsXfer := by
  intro b s n hn hlt
  have stalled : clockGives 8 s = false := by simpa [clockGives, hn] using hlt
  have left : pulsesLeft s = n := by simp [pulsesLeft, hn]
  obtain ⟨hung, ie, done, -, hist, env, -⟩ := xfer_hangs (b := b) stalled
  refine ⟨xfer b s, rfl, hung, ie, done, (xfer_hangs_cnt_val stalled).trans left, ?_⟩
  simp [hist, env]

/-! ### The lines (R126 to R129) -/

section

variable {s : State}

theorem execCsa_of_deasserted (h : s.cs = .deasserted) : execCsa s = .next (assertCs s) := by
  simp [execCsa, h]

theorem execCsa_of_asserted (h : s.cs = .asserted) : execCsa s = .refused .csaWhileAsserted := by
  simp [execCsa, h]

theorem execCsd_of_asserted (h : s.cs = .asserted) : execCsd s = .next (deassertCs s) := by
  simp [execCsd, h]

theorem execCsd_of_deasserted (h : s.cs = .deasserted) : execCsd s = .refused .csdWhileDeasserted := by
  simp [execCsd, h]

/-- R68: the transition of `LATCH` commits `DSR`. -/
theorem assertLatch_of_deasserted (h : s.latch = .deasserted) :
    assertLatch s = { s with
      latch := .asserted, dout := s.dsr, hist := s.hist ++ [.latch .asserted, .commit s.dsr] } := by
  simp [assertLatch, commitEvents, h]

/-- R68: without the transition nothing is committed (log entry 8). -/
theorem assertLatch_of_asserted (h : s.latch = .asserted) :
    assertLatch s = { s with hist := s.hist ++ [.latch .asserted] } := by
  simp [assertLatch, commitEvents, h]

end

/-- Settles O11: each operation goes on from one value of `CS` and is refused from the other. -/
theorem chipSelectOperations : Obligations.ChipSelectOperations := fun _ =>
  ⟨execCsa_of_deasserted, execCsd_of_asserted, execCsa_of_asserted, execCsd_of_deasserted⟩

/-- Settles O12: `LATD` only moves the line; `LATA` commits exactly if `LATCH` was deasserted, which in the other case is the
model's reading of R68 (log entry 8). -/
theorem latchOperations : Obligations.LatchOperations := fun _ =>
  ⟨rfl, fun h => congrArg _ (assertLatch_of_deasserted h), fun h => congrArg _ (assertLatch_of_asserted h)⟩

end Sys2Proof.Machine

namespace Sys2Proof.Machine

open Sys2Proof

/-! ### Sensor frames with the block's own dummy bytes (R141 to R143) -/

/-- In a frame of `DUMMY` bytes the reply to byte `k + 1` is `REG(c, k)`, if the command has a reply byte `k` (R66). -/
theorem replyAfter_clean (s : State) {c : Byte} {k : Nat} (hk : k < replyLength c) :
    replyAfter s (c :: List.replicate k s.params.dummy) = Config.sensorReg (s.draws + 1 + k) c k := by
  have clean : cleanFrame s.params (c :: List.replicate k s.params.dummy) = true := by
    simpa [cleanFrame_cons_iff] using hk
  have moment : s.draws + (k + 1) = s.draws + 1 + k := by omega
  simp [replyAfter, sensorReply, clean, moment]

theorem replyLength_pairByte (c : PairCmd) : replyLength (pairByte c) = 4 := by
  cases c <;> rfl

theorem replyLength_tripleByte (c : TripleCmd) : replyLength (tripleByte c) = 3 := by
  cases c <;> rfl

/-- Settles O16: `CONFIG` is the frame `74 43`. -/
theorem configFrame : Obligations.ConfigFrame := fun _ hs hu hcs hc => runUops_configUops hs hu hc hcs le_rfl

/-- Settles O17: `READPAIR` is a pair frame of `DUMMY` bytes, so that each of its four replies is the sensor's answer `REG`. -/
theorem readpairFrame : Obligations.ReadpairFrame := by
  intro s hs hu hcs hc r endOf
  have reply (c : PairCmd) {k : Nat} (hk : k < 4) :
      replyAfter s (pairByte c :: List.replicate k s.params.dummy) = r (pairByte c) k :=
    replyAfter_clean s (by rwa [replyLength_pairByte])
  have frame (c : PairCmd) : runUops (readpairUops s.params c) s = .next (storePair c (endOf (pairByte c))) := by
    simp only [endOf, ← reply c (k := 0) (by decide), ← reply c (k := 1) (by decide),
      ← reply c (k := 2) (by decide), ← reply c (k := 3) (by decide)]
    exact runUops_pairFrame hs hu hc hcs le_rfl c _ _ _ _
  exact ⟨frame .c88, frame .c8A, frame .c8E⟩

/-- Settles O18: `READTRIPLE` is a triple frame of `DUMMY` bytes, so that each of its three replies is the sensor's answer
`REG`. -/
theorem readtripleFrame : Obligations.ReadtripleFrame := by
  intro s hs hu hcs hc r endOf
  have reply (c : TripleCmd) {k : Nat} (hk : k < 3) :
      replyAfter s (tripleByte c :: List.replicate k s.params.dummy) = r (tripleByte c) k :=
    replyAfter_clean s (by rwa [replyLength_tripleByte])
  have frame (c : TripleCmd) : runUops (readtripleUops s.params c) s = .next (storeSample c (endOf (tripleByte c))) := by
    simp only [endOf, ← reply c (k := 0) (by decide), ← reply c (k := 1) (by decide),
      ← reply c (k := 2) (by decide)]
    exact runUops_tripleFrame hs hu hc hcs le_rfl c _ _ _
  exact ⟨frame .cFA, frame .cFB⟩

/-! ### Sensor frames with ticks between their µops (R140, R71) -/

/-- A running block whose clock always runs, with `CS` at `line`; and, once a byte has been exchanged in a frame, `DONE` set and
no bytes in a closed envelope. -/
structure Unhindered (line : Line) (exchanged : Bool) (s : State) : Prop where
  running : s.hung = false
  clock_runs : s.sched.clock = none
  cs_line : s.cs = line
  after_exchange : exchanged = true → s.done = true ∧ (line = .deasserted → s.env = [])

section

variable {line : Line} {exchanged : Bool} {s : State}

theorem Unhindered.clockGives (h : Unhindered line exchanged s) : clockGives 8 s = true := by
  simp [Machine.clockGives, h.clock_runs]

/-- A glyph sent while an envelope is closed adds no byte to it (R313). -/
theorem Unhindered.showGlyph (h : Unhindered line exchanged s) (g : Byte) : Unhindered line exchanged (showGlyph g s) := by
  rw [showGlyph_eq h.clockGives h.running]
  refine ⟨h.running, by simp [glyphFrameEnd, clockAfter, h.clock_runs], h.cs_line, fun hx => ⟨rfl, fun hl => ?_⟩⟩
  have closed : s.cs ≠ .asserted := by simp [h.cs_line, hl]
  simpa [glyphFrameEnd, closed] using (h.after_exchange hx).2 hl

theorem Unhindered.tickIn (h : Unhindered line exchanged s) (k : Fin 10) : Unhindered line exchanged (tickIn k s) := by
  have action : Unhindered line exchanged (scanAction k s) := by
    rcases scanAction_cases k s with e | ⟨g, d, e⟩ <;> rw [e]
    · exact h
    · exact Unhindered.showGlyph (s := { s with draws := d }) { h with } g
  rw [tickIn_eq rfl action.running]
  exact { action with }

theorem Unhindered.runIsr (h : Unhindered line exchanged s) : Unhindered line exchanged (runIsr s) := by
  have ticked : Unhindered line exchanged (tick (irqEnter s)) := Unhindered.tickIn (s := irqEnter s) { h with } _
  simp only [Machine.runIsr, ticked.running, Bool.false_eq_true, if_false]
  exact { ticked with }

/-- `MAIN` captures into its reply bytes, the coefficients and the samples (R108). -/
theorem Unhindered.capture (h : Unhindered line exchanged s) (u : Uop) : Unhindered line exchanged (capture u s) := by
  unfold Machine.capture
  split
  · rename_i k; cases k <;> exact { h with }
  · rename_i c; cases c <;> exact { h with }
  · rename_i c; cases c <;> exact { h with }
  · exact h

/-- Inside an envelope an `XFER` completes, and `DONE` is set. -/
theorem Unhindered.xfer (h : Unhindered .asserted exchanged s) (b : Byte) : Unhindered .asserted true (xfer b s) := by
  rw [xfer_eq h.clockGives]
  exact ⟨h.running, by simp [clockAfter, h.clock_runs], h.cs_line, fun _ => ⟨rfl, nofun⟩⟩

theorem Unhindered.assertCs (h : Unhindered line exchanged s) : Unhindered .asserted exchanged (assertCs s) :=
  { h with cs_line := rfl, after_exchange := fun hx => ⟨(h.after_exchange hx).1, nofun⟩ }

theorem Unhindered.deassertCs (h : Unhindered line exchanged s) : Unhindered .deasserted exchanged (deassertCs s) :=
  { h with cs_line := rfl, after_exchange := fun hx => ⟨(h.after_exchange hx).1, fun _ => rfl⟩ }

/-- Compare-matches and ticks at a boundary hinder nothing, and where the environment lets the block go on (R243) it ends. -/
theorem Unhindered.boundary (h : Unhindered line exchanged s) (hb : BoundariesEnd s) :
    ∃ t, boundary s = .goes t ∧ BoundariesEnd t ∧ Unhindered line exchanged t := by
  obtain ⟨t, goes, hbt⟩ := boundary_goes hb h.running
  have kept : Unhindered line exchanged s → Unhindered line exchanged (Machine.boundary s).state :=
    boundary_rel (R := fun a b => Unhindered line exchanged a → Unhindered line exchanged b)
      (fun _ => id) (fun _ _ _ hst htu => htu ∘ hst) (fun _ _ h => { h with }) (fun _ h => { h with })
      (fun _ _ _ h => h.runIsr) (fun _ _ _ _ h => { h with }) h.running
  rw [goes] at kept
  exact ⟨t, goes, hbt, kept h⟩

/-- After a µop that completes, and whatever the boundary after it brings, the rest of the list runs. -/
theorem Unhindered.runUops_cons {u : Uop} {v : State} (hu : runUop u s = .next v) (hv : Unhindered line exchanged v)
    (hb : BoundariesEnd v) (rest : List Uop) :
    ∃ t, runUops (u :: rest) s = runUops rest t ∧ BoundariesEnd t ∧ Unhindered line exchanged t := by
  rw [runUops, hu, andThen_of_running hv.running]
  cases rest with
  | nil => exact ⟨v, rfl, hb, hv⟩
  | cons w r =>
    obtain ⟨t, goes, hbt, ht⟩ := hv.boundary hb
    refine ⟨t, ?_, hbt, ht⟩
    simp [goes, afterBoundary, ht.running]

end

/-- Lists of µops made of whole sensor frames (R140), or that end the one that is open when `line` is asserted: each `XFER` lies
inside an envelope, each envelope is closed, and at least one byte is exchanged unless `exchanged` says that one has been. -/
inductive WholeFrames : Line → Bool → List Uop → Prop where
  | nil : WholeFrames .deasserted true []
  | csa {x us} (rest : WholeFrames .asserted x us) : WholeFrames .deasserted x (.csa :: us)
  | xfer {b k x us} (rest : WholeFrames .asserted true us) : WholeFrames .asserted x (.xfer b k :: us)
  | csd {d x us} (rest : WholeFrames .deasserted x us) : WholeFrames .asserted x (.csd d :: us)

theorem wholeFrames_configUops : WholeFrames .deasserted false configUops :=
  .csa (.xfer (.xfer (.csd .nil)))

theorem wholeFrames_pairFrame_append {us : List Uop} (h : WholeFrames .deasserted true us) (x : Bool) (c : PairCmd)
    (d0 d1 d2 d3 : Byte) : WholeFrames .deasserted x (pairFrame c d0 d1 d2 d3 ++ us) :=
  .csa (.xfer (.xfer (.xfer (.xfer (.xfer (.csd h))))))

theorem wholeFrames_readpairUops (p : Params) (c : PairCmd) : WholeFrames .deasserted false (readpairUops p c) :=
  wholeFrames_pairFrame_append .nil _ c _ _ _ _

theorem wholeFrames_readtripleUops (p : Params) (c : TripleCmd) : WholeFrames .deasserted false (readtripleUops p c) :=
  .csa (.xfer (.xfer (.xfer (.xfer (.csd .nil)))))

theorem wholeFrames_loadcalUops (p : Params) : WholeFrames .deasserted false (loadcalUops p) := by
  rw [loadcalUops, List.append_assoc]
  exact wholeFrames_pairFrame_append (wholeFrames_pairFrame_append
    (wholeFrames_pairFrame_append .nil true .c8E _ _ _ _) true .c8A _ _ _ _) false .c88 _ _ _ _

/-- Whole sensor frames complete, with `CS` deasserted, whatever arrives between their µops (R140, R71). -/
theorem WholeFrames.completes {line : Line} {x : Bool} {us : List Uop} (w : WholeFrames line x us) {s : State}
    (hb : BoundariesEnd s) (h : Unhindered line x s) : ∃ t, runUops us s = .next t ∧ Unhindered .deasserted true t := by
  induction w generalizing s with
  | nil => exact ⟨s, rfl, h⟩
  | csa _ ih =>
    obtain ⟨t, runs, hbt, ht⟩ := h.assertCs.runUops_cons (runUop_csa h.running h.cs_line) hb _
    exact runs ▸ ih hbt ht
  | @xfer b k _ _ _ ih =>
    have kept := (h.xfer b).capture (.xfer b k)
    obtain ⟨t, runs, hbt, ht⟩ := kept.runUops_cons (runUop_xfer h.running h.clockGives) (by simpa [BoundariesEnd] using hb) _
    exact runs ▸ ih hbt ht
  | @csd d _ _ _ ih =>
    have kept := h.deassertCs.capture (.csd d)
    obtain ⟨t, runs, hbt, ht⟩ := kept.runUops_cons (runUop_csd h.running h.cs_line) (by simpa [BoundariesEnd] using hb) _
    exact runs ▸ ih hbt ht

/-- Settles O21: every sensor operation is a list of whole frames, which complete. -/
theorem sensorOperationsCompleteWhateverArrives : Obligations.SensorOperationsCompleteWhateverArrives := by
  intro s i hb hs hcs hc hi
  have frames : ∃ us, exec i s = runUops us s ∧ WholeFrames .deasserted false us := by
    simp only [List.mem_cons, List.not_mem_nil, or_false] at hi
    obtain rfl | rfl | rfl | rfl | rfl | rfl | rfl := hi
    · exact ⟨_, rfl, wholeFrames_configUops⟩
    · exact ⟨_, rfl, wholeFrames_readpairUops s.params .c88⟩
    · exact ⟨_, rfl, wholeFrames_readpairUops s.params .c8A⟩
    · exact ⟨_, rfl, wholeFrames_readpairUops s.params .c8E⟩
    · exact ⟨_, rfl, wholeFrames_readtripleUops s.params .cFA⟩
    · exact ⟨_, rfl, wholeFrames_readtripleUops s.params .cFB⟩
    · exact ⟨_, rfl, wholeFrames_loadcalUops s.params⟩
  obtain ⟨us, runs, whole⟩ := frames
  obtain ⟨t, ends, ht⟩ := whole.completes hb ⟨hs, hc, hcs, nofun⟩
  obtain ⟨done, closed⟩ := ht.after_exchange rfl
  exact ⟨t, runs.trans ends, ht.running, ht.cs_line, closed rfl, done⟩

end Sys2Proof.Machine

namespace Sys2Proof.Machine

open Sys2Proof

/-! ### Two runs side by side -/

/-- Two boundaries that end the same way, in related states. -/
def CrossingsMatched (R : State → State → Prop) : Crossing → Crossing → Prop
  | .goes s, .goes t => R s t
  | .starved s, .starved t => R s t
  | _, _ => False

section

variable {R : State → State → Prop}

/-- Matched outcomes go on to matched outcomes: related states are both hung, or neither is. -/
theorem Matched.bind (hung : ∀ {s t}, R s t → t.hung = s.hung) {x y : Result} {k l : State → Result} (h : Matched R x y)
    (hk : ∀ {s t}, s.hung = false → R s t → Matched R (k s) (l t)) :
    Matched R (Machine.andThen x k) (Machine.andThen y l) := by
  obtain ⟨s, t, rfl, rfl, hst⟩ | ⟨a, rfl, rfl⟩ | ⟨a, rfl, rfl⟩ := matched_cases h
  · have same := hung hst
    cases hs : s.hung with
    | true => rw [andThen_of_hung hs, andThen_of_hung (same.trans hs)]; exact hst
    | false => rw [andThen_of_running hs, andThen_of_running (same.trans hs)]; exact hk hs hst
  · rfl
  · rfl

theorem CrossingsMatched.afterBoundary (hung : ∀ {s t}, R s t → t.hung = s.hung) {c d : Crossing} {k : State → Result}
    (h : CrossingsMatched R c d) (hk : ∀ {s t}, R s t → Matched R (k s) (k t)) :
    Matched R (afterBoundary c k) (afterBoundary d k) := by
  cases c <;> cases d
  case goes.goes s t => exact Matched.bind hung (x := .next s) (y := .next t) h fun _ hst => hk hst
  case starved.starved => exact h
  case goes.starved => exact h.elim
  case starved.goes => exact h.elim

/-- Two runs of one list of µops match if its µops do and the boundaries between them do. -/
theorem runUops_matched (hung : ∀ {s t}, R s t → t.hung = s.hung) {us : List Uop}
    (uop : ∀ u ∈ us, ∀ {s t}, R s t → Matched R (runUop u s) (runUop u t))
    (crossed : ∀ {s t}, s.hung = false → R s t → CrossingsMatched R (boundary s) (boundary t)) :
    ∀ {s t}, R s t → Matched R (runUops us s) (runUops us t) := by
  induction us with
  | nil => exact id
  | cons u rest ih =>
    intro s t h
    refine (uop u List.mem_cons_self h).bind hung fun hs hv => ?_
    cases rest with
    | nil => exact hv
    | cons _ _ => exact (crossed hs hv).afterBoundary hung (ih fun v hv => uop v (List.mem_cons_of_mem _ hv))

end

/-- Two states that agree on everything that decides which parts the next step is made of. -/
structure SameControl (s t : State) : Prop where
  hung : t.hung = s.hung
  ready : irqReady t = irqReady s
  params : t.params = s.params
  sched : t.sched = s.sched
  program : t.program = s.program
  mseq : t.mseq = s.mseq
  scan : t.scan = s.scan
  ctx : t.ctx = s.ctx

/-- What a relation must satisfy so that steps from related states match: related states agree on what decides the step's
parts, and every part of a step takes related states to related states. The same parts as those of `KeptByParts`. -/
structure MatchedByParts (R : State → State → Prop) : Prop where
  control : ∀ {s t}, R s t → SameControl s t
  uop : ∀ u {s t}, R s t → Matched R (uopEffect u s) (uopEffect u t)
  captured : ∀ u {s t}, R s t → R (capture u s) (capture u t)
  arrivals : ∀ a {s t}, R s t → R (setArrivals a s) (setArrivals a t)
  onward : ∀ o {s t}, R s t → R (setOnward o s) (setOnward o t)
  taken : ∀ {s t}, R s t → R (takeArrival s) (takeArrival t)
  idles : ∀ l {s t}, R s t → R (setIdles l s) (setIdles l t)
  event : ∀ {s t}, R s t → R (compareMatch s) (compareMatch t)
  isr : ∀ {s t}, R s t → R (runIsr s) (runIsr t)
  shown : ∀ g {s t}, R s t → R (showGlyph g s) (showGlyph g t)
  ticked : ∀ k {s t}, R s t → R (tickIn k s) (tickIn k t)
  advanced : ∀ {s t}, R s t → R (advanceMseq s) (advanceMseq t)
  returned : ∀ {s t}, R s t → R (irqReturn s) (irqReturn t)
  placed : ∀ r {s t}, R s t → R (setBytes r s) (setBytes r t)

section

variable {R : State → State → Prop} (M : MatchedByParts R)
include M

theorem MatchedByParts.hung {s t : State} (h : R s t) : t.hung = s.hung := (M.control h).hung

/-! #### Boundaries -/

theorem MatchedByParts.letGo {s t : State} (h : R s t) : CrossingsMatched R (letGo s) (letGo t) := by
  simp only [Machine.letGo, takeTick, (M.control h).ready]
  split
  · exact M.isr h
  · exact h

theorem MatchedByParts.settle {last : State → Crossing} (fin : ∀ {s t}, R s t → CrossingsMatched R (last s) (last t)) :
    ∀ (l : List Bool) {s t : State}, R s t → CrossingsMatched R (settle l last s) (settle l last t) := by
  intro l
  induction l with
  | nil => intro s t h; exact fin (M.arrivals [] h)
  | cons e r ih =>
    intro s t h
    cases e with
    | true => exact ih (M.event h)
    | false =>
      have ran := M.isr h
      simp only [Machine.settle, (M.control h).ready, M.hung ran]
      split
      · split
        · exact M.arrivals r ran
        · exact ih ran
      · exact M.arrivals r h

theorem MatchedByParts.pastMoves {s t : State} (h : R s t) : CrossingsMatched R (pastMoves s) (pastMoves t) := by
  have starved : ∀ {s t}, R s t → CrossingsMatched R (starve s) (starve t) := M.event
  unfold Machine.pastMoves
  rw [(M.control h).sched]
  split
  · exact M.letGo h
  · exact starved h
  · simp only []
    split
    · exact M.settle starved _ (M.onward _ h)
    · exact M.settle M.letGo _ (M.onward _ h)

theorem MatchedByParts.boundary {s t : State} (h : R s t) : CrossingsMatched R (boundary s) (boundary t) := by
  unfold Machine.boundary
  rw [(M.control h).sched]
  exact M.settle M.pastMoves _ h

/-! #### Operations -/

theorem MatchedByParts.runUop (u : Uop) {s t : State} (h : R s t) : Matched R (runUop u s) (runUop u t) :=
  (M.uop u h).bind M.hung fun _ hv => M.captured u hv

theorem MatchedByParts.runUops (us : List Uop) {s t : State} (h : R s t) : Matched R (runUops us s) (runUops us t) :=
  runUops_matched M.hung (fun u _ => M.runUop u) (fun _ => M.boundary) h

/-- Every operation of the opcode table matches itself in related states. -/
theorem MatchedByParts.exec (i : Instr) {s t : State} (h : R s t) : Matched R (exec i s) (exec i t) := by
  have params := (M.control h).params
  cases i with
  | idle => exact M.uop .idle h
  | csa => exact M.uop .csa h
  | csd => exact M.uop (.csd .nothing) h
  | latd => exact M.uop .latd h
  | lata => exact M.uop .lata h
  | xfer b => exact M.uop (.xfer b none) h
  | compt => exact M.uop .compt h
  | compp => exact M.uop .compp h
  | tcfg => exact M.uop .tcfg h
  | arm => exact M.uop .arm h
  | pub k =>
    simp only [Machine.exec, execPub]
    cases hd : digitOf k with
    | none => rfl
    | some d => simpa [uopEffect, execPub] using M.uop (.pub d) h
  | readpair c =>
    simp only [Machine.exec, execReadpair, params]
    split
    · exact M.runUops _ h
    · rfl
  | readtriple c =>
    simp only [Machine.exec, execReadtriple, params]
    split
    · exact M.runUops _ h
    · rfl
  | config => exact M.runUops _ h
  | loadcal => simpa only [Machine.exec, execLoadcal, params] using M.runUops _ h
  | boot => simpa only [Machine.exec, execBoot, params] using M.runUops _ h
  | poll =>
    simp only [Machine.exec, execPoll, params, (M.control h).sched]
    exact M.runUops _ (M.idles _ h)
  | wireCfg => exact M.runUops _ h
  | wirePair88 d0 d1 d2 d3 => exact M.runUops _ h
  | wirePair8A d0 d1 d2 d3 => exact M.runUops _ h
  | wirePair8E d0 d1 d2 d3 => exact M.runUops _ h
  | wireTriFA d0 d1 d2 => exact M.runUops _ h
  | wireTriFB d0 d1 d2 => exact M.runUops _ h
  | showg g => exact M.shown g h
  | wireGlyph g => exact M.shown g h
  | tick =>
    simp only [Machine.exec, execTick, tick, (M.control h).scan]
    exact M.ticked s.scan h
  | scan0 => exact M.ticked 0 h
  | scan1 => exact M.ticked 1 h
  | scan2 => exact M.ticked 2 h
  | scan3 => exact M.ticked 3 h
  | scan4 => exact M.ticked 4 h
  | scan5 => exact M.ticked 5 h
  | scan6 => exact M.ticked 6 h
  | scan7 => exact M.ticked 7 h
  | scan8 => exact M.ticked 8 h
  | scan9 => exact M.ticked 9 h

/-! #### Steps -/

theorem MatchedByParts.ownMove {s t : State} (h : R s t) : Matched R (ownMove s) (ownMove t) := by
  have c := M.control h
  simp only [Machine.ownMove, mainUop, c.ctx, c.params, c.mseq]
  split
  · exact (M.runUop _ h).bind M.hung fun _ hv => M.advanced hv
  · exact M.returned h

theorem MatchedByParts.runNext {s t : State} (h : R s t) : Matched R (runNext s) (runNext t) := by
  simp only [Machine.runNext, fetched, (M.control h).program]
  split
  · exact M.ownMove h
  · split
    · exact M.exec _ (M.placed _ h)
    · rfl

/-- Steps from related states match. -/
theorem MatchedByParts.step {s t : State} (h : R s t) : Matched R (step s) (step t) := by
  have moved := M.taken h
  simp only [Machine.step, blockMove, (M.control h).sched, M.hung moved, (M.control moved).ready]
  split
  · exact M.event moved
  · split
    · exact moved
    · split
      · exact M.isr moved
      · exact M.runNext moved

end

/-! ### Transfers cut short -/

/-- Pulses as one update of the state (R122). -/
theorem pulse_foldl_eq (b rin : Byte) (l : List (Fin 8)) (s : State) :
    l.foldl (pulse b rin) s = { s with
      sr := shiftBits s.params.bitOrder rin l s.sr
      dsr := shiftBits s.params.bitOrder b l s.dsr
      cnt := l.foldl (fun _ k => k.succ) s.cnt } := by
  induction l generalizing s with
  | nil => rfl
  | cons k l ih => exact ih (pulse b rin s k)

/-- An `XFER` that hangs as one update of the state (R124, R311); `xfer_eq` is the one that completes. -/
theorem xfer_eq_of_stalled {b : Byte} {s : State} (h : clockGives 8 s = false) :
    xfer b s = { s with
      sr := shiftBits s.params.bitOrder (nextReply s) (allPulses.take (pulsesLeft s)) b
      dsr := shiftBits s.params.bitOrder b (allPulses.take (pulsesLeft s)) s.dsr
      cnt := (allPulses.take (pulsesLeft s)).foldl (fun _ k => k.succ) 0
      done := false, ie := false, ieSaveX := s.ie, draws := s.draws + 1, hung := true
      sched := clockAfter (pulsesLeft s) s } := by
  unfold xfer xferHang pulses
  rw [if_neg (by simp [h]), pulse_foldl_eq]
  rfl

/-! ### The pressure coefficients (R163, R183) -/

/-- The state with other values of `P1`, `P2` and `P3`. -/
def withPressure (x y z : Datum 16) (s : State) : State := { s with p1 := x, p2 := y, p3 := z }

section

variable (x y z : Datum 16) (s : State)

theorem xfer_withPressure (b : Byte) : xfer b (withPressure x y z s) = withPressure x y z (xfer b s) := by
  cases h : clockGives 8 s with
  | true =>
    have h' : clockGives 8 (withPressure x y z s) = true := h
    rw [xfer_eq h, xfer_eq h']; rfl
  | false =>
    have h' : clockGives 8 (withPressure x y z s) = false := h
    rw [xfer_eq_of_stalled h, xfer_eq_of_stalled h']; rfl

theorem showGlyph_withPressure (g : Byte) :
    showGlyph g (withPressure x y z s) = withPressure x y z (showGlyph g s) := by
  have sent : xfer g (deassertLatch (withPressure x y z s)) = withPressure x y z (xfer g (deassertLatch s)) :=
    xfer_withPressure x y z (deassertLatch s) g
  unfold showGlyph
  rw [sent, apply_ite (withPressure x y z)]
  rfl

theorem showDigit_withPressure (d : Byte) :
    showDigit d (withPressure x y z s) = withPressure x y z (showDigit d s) :=
  showGlyph_withPressure x y z (glyphRead d s) (glyphNow d s)

theorem scanAction_withPressure (k : Fin 10) :
    scanAction k (withPressure x y z s) = withPressure x y z (scanAction k s) := by
  match k with
  | 0 => exact showDigit_withPressure x y z s s.digits.tTens
  | 1 => exact showDigit_withPressure x y z s s.digits.tOnes
  | 2 => exact showGlyph_withPressure x y z s s.params.glyphDp
  | 3 => exact showDigit_withPressure x y z s s.digits.tTenths
  | 4 => exact showGlyph_withPressure x y z s s.params.glyph[11]
  | 5 => exact showDigit_withPressure x y z s s.digits.pHundreds
  | 6 => exact showDigit_withPressure x y z s s.digits.pTens
  | 7 => exact showDigit_withPressure x y z s s.digits.pOnes
  | 8 => exact showGlyph_withPressure x y z s s.params.glyph[10]
  | 9 => rfl

theorem tickIn_withPressure (k : Fin 10) : tickIn k (withPressure x y z s) = withPressure x y z (tickIn k s) := by
  unfold tickIn advanceScan
  rw [scanAction_withPressure, apply_ite (withPressure x y z)]
  rfl

theorem runIsr_withPressure : runIsr (withPressure x y z s) = withPressure x y z (runIsr s) := by
  have ticked : tick (irqEnter (withPressure x y z s)) = withPressure x y z (tick (irqEnter s)) :=
    tickIn_withPressure x y z (irqEnter s) _
  unfold runIsr
  rw [ticked, apply_ite (withPressure x y z)]
  rfl

end

/-- `t` is `s` but for the values of `P1`, `P2` and `P3`. -/
def SameButPressure (s t : State) : Prop := ∃ x y z, t = withPressure x y z s

section

variable {s t : State}

/-- An update that does the same whatever the pressure coefficients hold keeps the two states so. -/
theorem SameButPressure.map (h : SameButPressure s t) {f : State → State}
    (blind : ∀ x y z, f (withPressure x y z s) = withPressure x y z (f s)) : SameButPressure (f s) (f t) := by
  obtain ⟨x, y, z, rfl⟩ := h
  exact ⟨x, y, z, blind x y z⟩

theorem SameButPressure.control (h : SameButPressure s t) : SameControl s t := by
  obtain ⟨x, y, z, rfl⟩ := h
  constructor <;> rfl

/-- No µop reads a pressure coefficient: the compensations do not (R163, R183). -/
theorem SameButPressure.uopEffect (h : SameButPressure s t) (u : Uop) :
    Matched SameButPressure (uopEffect u s) (uopEffect u t) := by
  cases u with
  | csa =>
    have hcs : t.cs = s.cs := by obtain ⟨x, y, z, rfl⟩ := h; rfl
    simp only [Machine.uopEffect, execCsa, hcs]
    split
    · exact h.map fun _ _ _ => rfl
    · rfl
  | csd _ =>
    have hcs : t.cs = s.cs := by obtain ⟨x, y, z, rfl⟩ := h; rfl
    simp only [Machine.uopEffect, execCsd, hcs]
    split
    · exact h.map fun _ _ _ => rfl
    · rfl
  | latd => exact h.map fun _ _ _ => rfl
  | lata => exact h.map fun _ _ _ => rfl
  | xfer b _ => exact h.map fun x y z => xfer_withPressure x y z s b
  | compt => exact h.map fun _ _ _ => rfl
  | compp => exact h.map fun _ _ _ => rfl
  | pub k =>
    simp only [Machine.uopEffect, execPub_selectorByte]
    exact h.map fun _ _ _ => rfl
  | tcfg =>
    simp only [Machine.uopEffect, execTcfg, h.control.params]
    split
    · rfl
    · split
      · exact h.map fun _ _ _ => rfl
      · rfl
  | arm => exact h.map fun _ _ _ => rfl
  | idle => exact h

/-- The frames `8A` and `8E` load pressure coefficients, from the reply bytes only (R160). -/
theorem SameButPressure.capture (h : SameButPressure s t) (u : Uop) : SameButPressure (capture u s) (capture u t) := by
  obtain ⟨x, y, z, rfl⟩ := h
  unfold Machine.capture
  split
  · rename_i k; cases k <;> exact ⟨x, y, z, rfl⟩
  · rename_i c
    cases c with
    | c88 => exact ⟨x, y, z, rfl⟩
    | c8A => exact ⟨⟨pairOut2 s, true⟩, y, z, rfl⟩
    | c8E => exact ⟨x, ⟨pairOut1 s, true⟩, ⟨pairOut2 s, true⟩, rfl⟩
  · rename_i c; cases c <;> exact ⟨x, y, z, rfl⟩
  · exact ⟨x, y, z, rfl⟩

end

theorem sameButPressure_matchedByParts : MatchedByParts SameButPressure where
  control h := h.control
  uop u _ _ h := h.uopEffect u
  captured u _ _ h := h.capture u
  arrivals _ _ _ h := h.map fun _ _ _ => rfl
  onward _ _ _ h := h.map fun _ _ _ => rfl
  taken h := h.map fun _ _ _ => rfl
  idles _ _ _ h := h.map fun _ _ _ => rfl
  event h := h.map fun _ _ _ => rfl
  isr h := h.map fun x y z => runIsr_withPressure x y z _
  shown g _ _ h := h.map fun x y z => showGlyph_withPressure x y z _ g
  ticked k _ _ h := h.map fun x y z => tickIn_withPressure x y z _ k
  advanced h := h.map fun _ _ _ => rfl
  returned h := h.map fun _ _ _ => rfl
  placed _ _ _ h := h.map fun _ _ _ => rfl

/-- Settles O29: no part of a step reads `P1`, `P2` or `P3`, so by `MatchedByParts.step` no step does. -/
theorem pressureCoefficientsNeverConsumed : Obligations.PressureCoefficientsNeverConsumed := by
  intro s x y z
  refine (sameButPressure_matchedByParts.step ⟨x, y, z, rfl⟩).imp ?_
  rintro a b ⟨x, y, z, rfl⟩
  rfl

end Sys2Proof.Machine

namespace Sys2Proof.Machine

open Sys2Proof

/-! ### The coefficients after the boot phase (R162, R22) -/

/-- `T1`, `T2`, `T3`, `P1`, `P2`, `P3` (R22). -/
def coefficients (s : State) : List (Datum 16) := [s.t1, s.t2, s.t3, s.p1, s.p2, s.p3]

/-- No µop names a coefficient as a destination: a frame's results are assembled by `MAIN`'s capture (R108). -/
theorem uopEffect_coefficients {u : Uop} {s t : State} (h : uopEffect u s = .next t) : coefficients t = coefficients s := by
  cases u with
  | csa => obtain ⟨-, rfl⟩ := execCsa_next h; rfl
  | csd _ => obtain ⟨-, rfl⟩ := execCsd_next h; rfl
  | latd => cases h; rfl
  | lata => cases h; rfl
  | xfer b _ => cases h; simp [coefficients]
  | compt => cases h; rfl
  | compp => cases h; rfl
  | pub k => cases (execPub_selectorByte k s).symm.trans h; rfl
  | tcfg => obtain ⟨-, -, -, rfl⟩ := execTcfg_next h; rfl
  | arm => cases h; rfl
  | idle => cases h; rfl

/-- Only the `CSD` of a pair frame has `MAIN` store coefficients (R160). -/
theorem capture_coefficients {u : Uop} (h : ∀ c, u ≠ .csd (.pair c)) (s : State) :
    coefficients (capture u s) = coefficients s := by
  unfold capture
  split
  · rename_i k; cases k <;> rfl
  · rename_i c; exact absurd rfl (h c)
  · rename_i c; cases c <;> rfl
  · rfl

theorem runUop_coefficients {u : Uop} (hu : ∀ c, u ≠ .csd (.pair c)) {s t : State} (h : runUop u s = .next t) :
    coefficients t = coefficients s := by
  obtain ⟨v, hv, ⟨-, rfl⟩ | ⟨-, rfl⟩⟩ := runUop_next h
  · exact uopEffect_coefficients hv
  · exact (capture_coefficients hu v).trans (uopEffect_coefficients hv)

/-- A polling cycle has no pair frame (R233). -/
theorem pollUops_ne_pair (p : Params) : ∀ u ∈ pollUops p, ∀ c, u ≠ .csd (.pair c) := by
  simp [pollUops, configUops, readtripleUops, tripleFrame]

/-- Nor has any position past the boot phase (R232, R233). -/
theorem mseqUop_ne_pair (p : Params) {m : MSeq} (h : bootPlace m = 23) : ∀ c, mseqUop p m ≠ .csd (.pair c) := by
  cases m with
  | boot i => exact absurd h i.isLt.ne
  | poll i => exact pollUops_ne_pair p _ (List.getElem_mem _)
  | idle => exact nofun

/-- Settles O53: a step of the fixed sequence is an event, a run of the handler or the µop of a position past the boot phase,
and none of them writes a coefficient. -/
theorem coefficientsImmutableAfterBoot : Obligations.CoefficientsImmutableAfterBoot := by
  intro s t inv hm h
  suffices kept : coefficients t = coefficients (takeArrival s) by simpa [coefficients] using kept
  obtain ⟨-, rfl⟩ | ⟨-, moved⟩ := step_cases h
  · rfl
  obtain ⟨-, rfl⟩ | ⟨-, -, rfl⟩ | ⟨-, -, i, rest, placed, -⟩ | ⟨-, -, -, -, own⟩ | ⟨-, -, -, -, rfl⟩ :=
    blockMove_cases moved
  · rfl
  · simp [coefficients]
  · simp [fetched, inv.nothing_placed, decode_nil] at placed
  · obtain ⟨v, hv, after⟩ := andThen_next own
    have kept := runUop_coefficients (mseqUop_ne_pair _ hm) hv
    obtain ⟨-, rfl⟩ | ⟨-, advanced⟩ := after
    · exact kept
    · cases advanced; exact kept
  · rfl

end Sys2Proof.Machine

namespace Sys2Proof.Machine

open Sys2Proof

/-! ### Whole frames one after the other -/

/-- Two lists of µops, the first of which ends where nothing disturbs it, run one after the other. -/
theorem runUops_append {us vs : List Uop} {s t : State} (h : runUops us s = .next t) (ht : t.hung = false)
    (hu : Undisturbed t) : runUops (us ++ vs) s = runUops vs t := by
  induction us generalizing s with
  | nil => cases h; rfl
  | cons u rest ih =>
    obtain ⟨v, hv, ⟨hh, rfl⟩ | ⟨hr, hk⟩⟩ := andThen_next h
    · simp [hh] at ht
    cases rest with
    | nil => cases hk; exact runUops_cons hv ht hu
    | cons w r =>
      rw [List.cons_append, runUops, hv, andThen_of_running hr]
      simp only [List.cons_append]
      simp only at hk
      cases hb : boundary v with
      | starved x =>
        rw [hb] at hk; cases hk
        cases hu.1.2.symm.trans (boundary_starved hb).2
      | goes x =>
        rw [hb] at hk
        simp only [afterBoundary] at hk ⊢
        obtain ⟨y, hy, ⟨hh, rfl⟩ | ⟨hr', hk'⟩⟩ := andThen_next hk
        · simp [hh] at ht
        · cases hy
          rw [andThen_of_running hr']
          exact ih hk'

/-- The state after an undisturbed `READPAIR c` (R142). -/
def pairLoaded (c : PairCmd) (s : State) : State :=
  storePair c (pairFrameEnd (pairByte c) s.params.dummy s.params.dummy s.params.dummy s.params.dummy
    (Config.sensorReg (s.draws + 1) (pairByte c) 0) (Config.sensorReg (s.draws + 2) (pairByte c) 1)
    (Config.sensorReg (s.draws + 3) (pairByte c) 2) (Config.sensorReg (s.draws + 4) (pairByte c) 3) s)

/-- The six coefficients loaded from three frames with nothing to disturb them (R160). -/
def calibrated (s : State) : State := pairLoaded .c8E (pairLoaded .c8A (pairLoaded .c88 s))

theorem runUops_readpairUops {s : State} (hs : s.hung = false) (hu : Undisturbed s) (hcs : s.cs = .deasserted)
    (hc : clockGives 40 s = true) (c : PairCmd) :
    runUops (readpairUops s.params c) s = .next (pairLoaded c s) := by
  obtain ⟨f88, f8A, f8E⟩ := readpairFrame s hs hu hcs hc
  cases c with
  | c88 => exact f88
  | c8A => exact f8A
  | c8E => exact f8E

/-- `LOADCAL` with nothing to disturb it. -/
theorem runUops_loadcalUops {s : State} (hs : s.hung = false) (hu : Undisturbed s) (hcs : s.cs = .deasserted)
    (hc : clockGives 120 s = true) : runUops (loadcalUops s.params) s = .next (calibrated s) := by
  have first := runUops_readpairUops hs hu hcs (clockGives_mono hc (by omega)) .c88
  have hc1 : clockGives 80 (pairLoaded .c88 s) = true := clockGives_after (n := 40) hc rfl
  have second := runUops_readpairUops (s := pairLoaded .c88 s) hs hu rfl (clockGives_mono hc1 (by omega)) .c8A
  have hc2 : clockGives 40 (pairLoaded .c8A (pairLoaded .c88 s)) = true := clockGives_after (n := 40) hc1 rfl
  have third := runUops_readpairUops (s := pairLoaded .c8A (pairLoaded .c88 s)) hs hu rfl hc2 .c8E
  rw [loadcalUops, List.append_assoc, runUops_append first hs hu]
  exact (runUops_append second hs hu).trans third

/-! ### Sensor frames while the interrupt is masked (R161) -/

/-- The state with no compare-match pending and none to come. -/
def calm (s : State) : State :=
  { s with tickPend := false, sched := { s.sched with arrivals := [], arrivalsOnward := .never } }

theorem calm_undisturbed (s : State) : Undisturbed (calm s) := ⟨⟨rfl, rfl⟩, by simp [irqReady, calm]⟩

/-- States that are equal without what `calm` removes differ in `TICK_PEND` and the environment's choices only. -/
theorem eq_of_calm_eq {s t : State} (h : calm s = calm t) : ∃ p e, s = { t with tickPend := p, sched := e } :=
  ⟨s.tickPend, s.sched, congrArg (fun u => { u with tickPend := s.tickPend, sched := s.sched }) h⟩

/-- `t` is `s` with no compare-match pending and none to come; in `s` any may come, but the interrupt is masked and the
environment lets macros go on (R243). -/
structure Calmed (s t : State) : Prop where
  masked : s.ie = false
  ends : BoundariesEnd s
  calm_eq : t = calm s

section

variable {s t : State}

theorem Calmed.hung (h : Calmed s t) : t.hung = s.hung := by rw [h.calm_eq]; rfl

theorem Calmed.cs (h : Calmed s t) : t.cs = s.cs := by rw [h.calm_eq]; rfl

theorem Calmed.map (h : Calmed s t) (f : State → State) (masked : (f s).ie = false)
    (onward : (f s).sched.arrivalsOnward = s.sched.arrivalsOnward) (blind : f (calm s) = calm (f s)) :
    Calmed (f s) (f t) :=
  ⟨masked, by simpa only [BoundariesEnd, onward] using h.ends, by rw [h.calm_eq, blind]⟩

theorem xfer_calm (b : Byte) (s : State) : xfer b (calm s) = calm (xfer b s) := by
  cases h : clockGives 8 s with
  | true =>
    have h' : clockGives 8 (calm s) = true := h
    rw [xfer_eq h, xfer_eq h']; rfl
  | false =>
    have h' : clockGives 8 (calm s) = false := h
    rw [xfer_eq_of_stalled h, xfer_eq_of_stalled h']; rfl

/-- `XFER` masks the interrupt and restores what it found (R123), so a masked one stays masked. -/
theorem xfer_masked {b : Byte} {s : State} (h : s.ie = false) : (xfer b s).ie = false := by
  obtain ⟨-, -, hie, -⟩ | ⟨-, -, hie, -⟩ := xfer_cases b s
  · rw [hie, h]
  · exact hie

/-- `MAIN` captures from `SR` and its reply bytes into those, the coefficients and the samples (R108). -/
theorem Calmed.capture (h : Calmed s t) (u : Uop) : Calmed (capture u s) (capture u t) := by
  obtain ⟨masked, ends, rfl⟩ := h
  unfold Machine.capture
  split
  · rename_i k; cases k <;> exact ⟨masked, ends, rfl⟩
  · rename_i c; cases c <;> exact ⟨masked, ends, rfl⟩
  · rename_i c; cases c <;> exact ⟨masked, ends, rfl⟩
  · exact ⟨masked, ends, rfl⟩

/-- At a boundary of a masked block only compare-matches come, which set `TICK_PEND` and nothing else. -/
theorem boundary_masked (hie : s.ie = false) (hs : s.hung = false) :
    (boundary s).state.ie = false ∧ calm (boundary s).state = calm s := by
  refine boundary_rel (R := fun a b => a.ie = false → b.ie = false ∧ calm b = calm a) (fun _ h => ⟨h, rfl⟩) ?_
    (fun _ _ h => ⟨h, rfl⟩) (fun _ h => ⟨h, rfl⟩) ?_ (fun _ _ _ _ h => ⟨h, rfl⟩) hs hie
  · intro a b c hab hbc ha
    obtain ⟨hb, eab⟩ := hab ha
    obtain ⟨hc, ebc⟩ := hbc hb
    exact ⟨hc, ebc.trans eab⟩
  · intro a _ ready ha
    simp [irqReady, ha] at ready

theorem Calmed.boundary (h : Calmed s t) (hs : s.hung = false) : CrossingsMatched Calmed (boundary s) (boundary t) := by
  have quiet : Undisturbed t := h.calm_eq ▸ calm_undisturbed s
  obtain ⟨v, goes, hv⟩ := boundary_goes h.ends hs
  have kept := boundary_masked h.masked hs
  rw [goes] at kept
  rw [goes, boundary_undisturbed quiet]
  exact ⟨kept.1, hv, h.calm_eq.trans kept.2.symm⟩

end

/-- Whole frames are made of `CSA`, `XFER` and `CSD` (R140). -/
theorem WholeFrames.uops {line : Line} {x : Bool} {us : List Uop} (w : WholeFrames line x us) :
    ∀ u ∈ us, u = .csa ∨ (∃ b k, u = .xfer b k) ∨ ∃ d, u = .csd d := by
  induction w with
  | nil => simp
  | csa _ ih => simpa using ih
  | xfer _ ih => simpa using ih
  | csd _ ih => simpa using ih

/-- With the interrupt masked, whole frames run as if no compare-match came (R161). -/
theorem WholeFrames.calmed {line : Line} {x : Bool} {us : List Uop} (w : WholeFrames line x us) {s t : State}
    (h : Calmed s t) : Matched Calmed (runUops us s) (runUops us t) := by
  refine runUops_matched Calmed.hung (fun u hu s t h => Matched.bind Calmed.hung ?_ fun _ hv => hv.capture u)
    (fun hs h => h.boundary hs) h
  obtain rfl | ⟨b, k, rfl⟩ | ⟨d, rfl⟩ := w.uops u hu
  · simp only [uopEffect, execCsa, h.cs]
    split
    · exact h.map assertCs h.masked rfl rfl
    · rfl
  · exact h.map (Machine.xfer b) (xfer_masked h.masked) (by simp) (xfer_calm b s)
  · simp only [uopEffect, execCsd, h.cs]
    split
    · exact h.map deassertCs h.masked rfl rfl
    · rfl

/-- Settles O20: with the interrupt masked `LOADCAL` does what it does undisturbed, but for `TICK_PEND` and the environment's
choices of arrivals; every clause reads a field of `calibrated s` other than these. -/
theorem loadcalLoadsSixCoefficients : Obligations.LoadcalLoadsSixCoefficients := by
  intro s hb hs hie hcs hc r
  have undisturbed : runUops (loadcalUops s.params) (calm s) = .next (calibrated (calm s)) :=
    runUops_loadcalUops (s := calm s) hs (calm_undisturbed s) hcs hc
  have same := (wholeFrames_loadcalUops s.params).calmed ⟨hie, hb, rfl⟩
  rw [undisturbed] at same
  obtain ⟨t, _, runs, ⟨⟩, -, -, e⟩ | ⟨_, -, ⟨⟩⟩ | ⟨_, -, ⟨⟩⟩ := matched_cases same
  obtain ⟨p, e, rfl⟩ := eq_of_calm_eq (s := t) (t := calibrated s) e.symm
  exact ⟨_, runs, rfl, rfl, rfl, rfl, rfl, rfl, rfl, hs, rfl, rfl, rfl, rfl, rfl, hie, rfl, rfl, rfl, rfl, rfl, rfl, rfl,
    rfl, rfl, rfl, rfl, rfl⟩

end Sys2Proof.Machine

namespace Sys2Proof.Machine

open Sys2Proof

/-! ### Decimal digits (R175, R180) -/

/-- A decimal digit is the value of the byte that holds it. -/
theorem toNat_byte_of_digit {k : Nat} (h : k ≤ 9) : (BitVec.ofNat 8 k).toNat = k := by
  rw [BitVec.toNat_ofNat, Nat.mod_eq_of_lt (by omega)]

/-! ### The temperature formulas (R170 to R173) -/

section

variable (adct : Sample) (t1 t2 t3 : Coef)

theorem tempM1_eq : tempM1 adct t1 t2 = ((adct.toNat : Int) / 8 - 2 * t1.toInt) * t2.toInt := by
  rw [tempM1, Int.mul_comm t1.toInt 2]
  rfl

theorem tempD_eq : tempD adct t1 = (adct.toNat : Int) / 16 - t1.toInt := rfl

theorem tempM2_eq : tempM2 adct t1 t3 = tempD adct t1 * tempD adct t1 / 4096 * t3.toInt := rfl

theorem tempFine_eq : tempFine adct t1 t2 t3 = tempM1 adct t1 t2 / 2048 + tempM2 adct t1 t3 / 16384 := rfl

end

/-! ### The temperature digits (R170, R174 to R177) -/

/-- R175: on `tfine >= 0` the digits are quotients and remainders of the integer itself. -/
theorem tempDigits_of_nonneg {tfine : Int} (h : 0 ≤ tfine) : tempDigits tfine =
    (BitVec.ofInt 8 (tfine / 5120 / 10), BitVec.ofInt 8 (tfine / 5120 % 10), BitVec.ofInt 8 (tfine / 512 % 10)) := by
  lift tfine to Nat using h
  rfl

/-- R176: below 512000 each digit is at most 9, and they recombine. -/
theorem tempDigits_recombine {tfine : Int} (h₀ : 0 ≤ tfine) (h : tfine < 512000) :
    (tempDigits tfine).1.toNat ≤ 9 ∧ (tempDigits tfine).2.1.toNat ≤ 9 ∧ (tempDigits tfine).2.2.toNat ≤ 9 ∧
    ((tempDigits tfine).1.toNat : Int) * 100 + (tempDigits tfine).2.1.toNat * 10 + (tempDigits tfine).2.2.toNat =
      tfine / 512 := by
  lift tfine to Nat using h₀
  have tens : (tempDigits tfine).1.toNat = tfine / 5120 / 10 := toNat_byte_of_digit (by omega)
  have ones : (tempDigits tfine).2.1.toNat = tfine / 5120 % 10 := toNat_byte_of_digit (by omega)
  have tenths : (tempDigits tfine).2.2.toNat = tfine / 512 % 10 := toNat_byte_of_digit (by omega)
  rw [tens, ones, tenths]
  omega

/-- `COMPT`'s next state, whatever its digits are and however many free bytes it drew for them. -/
theorem exec_compt_of_results {s : State} {tt to_ th : Byte} {n : Nat} (results : tempResults s = (tt, to_, th))
    (draws : tempDraws s = n) :
    exec .compt s = .next { s with
      results := { s.results with tTens := tt, tOnes := to_, tTenths := th }
      draws := s.draws + n
      misreads := s.misreads ++ tempMisreads s } := by
  change execCompt s = _
  rw [execCompt, compensateTemp, results, draws]

/-- Settles O24: the digits are those of `tfine` as an integer, and nothing is drawn. -/
theorem temperatureDigitsInDomain : Obligations.TemperatureDigitsInDomain := by
  intro s a m1 d m2 tfine hm1 hdd hm2 hfine h₀ h tt to_ th
  have fine : tempFine s.adct.value s.t1.value s.t2.value s.t3.value = tfine := by
    rw [tempFine_eq, tempM2_eq, tempD_eq, tempM1_eq]
  have inside : tempInDomain s.adct.value s.t1.value s.t2.value s.t3.value := by
    rw [tempInDomain, fine, tempM2_eq, tempD_eq, tempM1_eq]
    exact ⟨hm1, hdd, hm2, hfine, h₀, h⟩
  have digits : tempDigits tfine = (tt, to_, th) := tempDigits_of_nonneg h₀
  have results : tempResults s = (tt, to_, th) := by rw [tempResults, if_pos inside, fine, digits]
  refine ⟨exec_compt_of_results results (if_pos inside), ?_⟩
  have recombine := tempDigits_recombine h₀ h
  rwa [digits] at recombine

/-- Settles O25: the premise denies the domain, so the digits are the next three free bytes. -/
theorem temperatureDigitsOutsideDomain : Obligations.TemperatureDigitsOutsideDomain := by
  intro s a m1 d m2 tfine outside
  have outside' : ¬ tempInDomain s.adct.value s.t1.value s.t2.value s.t3.value := by
    rw [tempInDomain, tempFine_eq, tempM2_eq, tempD_eq, tempM1_eq]
    exact outside
  exact exec_compt_of_results (if_neg outside') (if_neg outside')

/-! ### The pressure digits (R180 to R182) -/

theorem pressure_eq (adcp : Sample) : pressure adcp = ((adcp.toNat : Int) / 4 - 1638) * 50 := rfl

/-- R181: where the domain of the pressure digits begins. -/
theorem pressure_nonneg_iff (adcp : Sample) : 0 ≤ pressure adcp ↔ 6552 ≤ adcp.toNat := by
  rw [pressure_eq]
  omega

theorem pressure_of_ge {adcp : Sample} (h : 6552 ≤ adcp.toNat) :
    pressure adcp = ((adcp.toNat / 4 - 1638) * 50 : Nat) := by
  rw [pressure_eq]
  omega

/-- R181: the digits recombine to `p mod 1000`; a multiple of 50 ends in 00 or 50 (R180). -/
theorem pressureDigits_recombine (k : Nat) :
    let ds := pressureDigits (k * 50 : Nat)
    ds.1.toNat * 100 + ds.2.1.toNat * 10 + ds.2.2.toNat = k * 50 % 1000 ∧
    ds.1.toNat ≤ 9 ∧ (ds.2.1.toNat = 0 ∨ ds.2.1.toNat = 5) ∧ ds.2.2.toNat = 0 := by
  intro ds
  have hundreds : ds.1.toNat = k * 50 / 100 % 10 := toNat_byte_of_digit (by omega)
  have tens : ds.2.1.toNat = k * 50 / 10 % 10 := toNat_byte_of_digit (by omega)
  have ones : ds.2.2.toNat = k * 50 % 10 := toNat_byte_of_digit (by omega)
  rw [hundreds, tens, ones]
  omega

/-- `COMPP`'s next state, whatever its digits are and however many free bytes it drew for them. -/
theorem exec_compp_of_results {s : State} {ph pt po : Byte} {n : Nat} (results : pressureResults s = (ph, pt, po))
    (draws : pressureDraws s = n) :
    exec .compp s = .next { s with
      results := { s.results with pHundreds := ph, pTens := pt, pOnes := po }
      draws := s.draws + n
      misreads := s.misreads ++ pressureMisreads s } := by
  change execCompp s = _
  rw [execCompp, compensatePressure, results, draws]

/-- Settles O26: the digits are those of `p` as a natural number, and nothing is drawn. -/
theorem pressureDigitsInDomain : Obligations.PressureDigitsInDomain := by
  intro s h p ph pt po
  have inside := (pressure_nonneg_iff s.adcp.value).mpr h
  have results : pressureResults s = (ph, pt, po) := by
    rw [pressureResults, if_pos inside, pressure_of_ge h]
    rfl
  exact ⟨exec_compp_of_results results (if_pos inside), pressureDigits_recombine _⟩

/-- Settles O27: below 6552 the pressure is negative, so the digits are the next three free bytes. -/
theorem pressureDigitsOutsideDomain : Obligations.PressureDigitsOutsideDomain := by
  intro s h
  have outside : ¬ 0 ≤ pressure s.adcp.value := by
    rw [pressure_nonneg_iff]
    omega
  exact exec_compp_of_results (if_neg outside) (if_neg outside)

end Sys2Proof.Machine

namespace Sys2Proof.Machine

open Sys2Proof

/-! ### The glyph frame (R204) -/

/-- A `SHOW` that hangs (R204, R124): `LATCH` stays deasserted and `DOUT` at the previous glyph. -/
theorem showGlyph_hangs {g : Byte} {s : State} (h : clockGives 8 s = false) :
    (showGlyph g s).hung = true ∧ (showGlyph g s).latch = .deasserted ∧ (showGlyph g s).dout = s.dout ∧
    (showGlyph g s).ie = false ∧ (showGlyph g s).env = s.env ∧
    (showGlyph g s).hist = s.hist ++ [.latch .deasserted] := by
  have stalled : clockGives 8 (deassertLatch s) = false := h
  obtain ⟨hung, ie, -, -, hist, env, -⟩ := xfer_hangs (b := g) stalled
  have stops : showGlyph g s = xfer g (deassertLatch s) := by simp [showGlyph, hung]
  simp [stops, hung, ie, hist, env]

/-- Settles O30: both operations are `SHOW`, which completes as one update of the state or hangs before `LATA`. -/
theorem glyphFrames : Obligations.GlyphFrames := by
  intro g s hs
  refine ⟨fun hc => ?_, fun hc => ?_⟩
  · have shown : (.next (showGlyph g s) : Result) = .next (glyphFrameEnd g s) := congrArg _ (showGlyph_eq hc hs)
    exact ⟨shown, shown⟩
  · obtain ⟨hung, latch, dout, ie, env, hist⟩ := showGlyph_hangs (g := g) hc
    exact ⟨showGlyph g s, rfl, rfl, hung, latch, dout, ie, by simp, by simp, env, hist⟩

/-! ### The rows of the scan states (R206, R213 to R222) -/

/-- A read of the glyph table inside it (R72). -/
theorem glyphOr_of_lt {d : Byte} (hd : d.toNat < 12) (p : Params) (x : Byte) : glyphOr p x d = p.glyph[d.toNat] :=
  dif_pos hd

/-- `SHOW` of a digit inside the table takes no free byte. -/
theorem showDigit_of_lt {d : Byte} (hd : d.toNat < 12) (s : State) :
    showDigit d s = showGlyph s.params.glyph[d.toNat] s := by
  have read : glyphRead d s = s := by simp [glyphRead, inGlyphTable, hd]
  rw [showDigit, read, glyphNow, glyphOr_of_lt hd]

section

variable {k : Fin 10} {s : State}

/-- The tick of a state whose action shows the glyph `g`. -/
theorem tickIn_of_showGlyph {g : Byte} (hk : scanAction k s = showGlyph g s) (hc : clockGives 8 s = true)
    (hs : s.hung = false) : tickIn k s = { glyphFrameEnd g s with scan := k + 1 } :=
  tickIn_eq (hk.trans (showGlyph_eq hc hs)) hs

/-- The tick of a state whose action shows a digit inside the table. -/
theorem tickIn_of_showDigit {d : Byte} (hk : scanAction k s = showDigit d s) (hd : d.toNat < 12)
    (hc : clockGives 8 s = true) (hs : s.hung = false) :
    tickIn k s = { glyphFrameEnd s.params.glyph[d.toNat] s with scan := k + 1 } :=
  tickIn_of_showGlyph (hk.trans (showDigit_of_lt hd s)) hc hs

end

/-- Settles O31: six rows show a digit, three a constant of the table or the point, and the last nothing. -/
theorem scanStateActions : Obligations.ScanStateActions := by
  intro s hs
  refine ⟨fun hc => ?_, congrArg _ (tickIn_eq (t := s) rfl hs)⟩
  have digit {k : Fin 10} {d : Byte} (hk : scanAction k s = showDigit d s) (hd : d.toNat < 12) :
      (.next (tickIn k s) : Result) = .next { glyphFrameEnd s.params.glyph[d.toNat] s with scan := k + 1 } :=
    congrArg _ (tickIn_of_showDigit hk hd hc hs)
  have constant {k : Fin 10} {g : Byte} (hk : scanAction k s = showGlyph g s) :
      (.next (tickIn k s) : Result) = .next { glyphFrameEnd g s with scan := k + 1 } :=
    congrArg _ (tickIn_of_showGlyph hk hc hs)
  exact ⟨digit rfl, digit rfl, constant rfl, digit rfl, constant rfl, digit rfl, digit rfl, digit rfl, constant rfl⟩

/-- Settles O33: `TICK` runs the tick of the scan state found on entry, and that tick is the state's row. -/
theorem tickDispatchesOnScan : Obligations.TickDispatchesOnScan := by
  intro s
  have row {k : Fin 10} (h : s.scan = k) : exec .tick s = .next (tickIn k s) := h ▸ rfl
  exact ⟨row, row, row, row, row, row, row, row, row, row⟩

/-- Settles O34: `TICK` is the row of its scan state (O33), and the row's outcome is known (O31). -/
theorem tickShowsTheGlyphOfItsState : Obligations.TickShowsTheGlyphOfItsState := by
  intro s hs
  obtain ⟨tick0, tick1, tick2, tick3, tick4, tick5, tick6, tick7, tick8, tick9⟩ := tickDispatchesOnScan s
  obtain ⟨rows, row9⟩ := scanStateActions s hs
  refine ⟨fun hc => ?_, fun h => (tick9 h).trans row9⟩
  obtain ⟨row0, row1, row2, row3, row4, row5, row6, row7, row8⟩ := rows hc
  exact ⟨fun h hd => (tick0 h).trans (row0 hd), fun h hd => (tick1 h).trans (row1 hd), fun h => (tick2 h).trans row2,
    fun h hd => (tick3 h).trans (row3 hd), fun h => (tick4 h).trans row4, fun h hd => (tick5 h).trans (row5 hd),
    fun h hd => (tick6 h).trans (row6 hd), fun h hd => (tick7 h).trans (row7 hd), fun h => (tick8 h).trans row8⟩

/-! ### The glyph of a scan state, and the advance of `SCAN` (R206, R208) -/

/-- The glyph a scan state shows of the digits `d`, if any (R206, R213 to R222); `x` stands for a digit above the table. -/
def scanGlyph (p : Params) (x : Byte) (d : Digits) (k : Fin 10) : Option Byte :=
  match k with
  | 0 => some (glyphOr p x d.tTens)
  | 1 => some (glyphOr p x d.tOnes)
  | 2 => some p.glyphDp
  | 3 => some (glyphOr p x d.tTenths)
  | 4 => some p.glyph[11]
  | 5 => some (glyphOr p x d.pHundreds)
  | 6 => some (glyphOr p x d.pTens)
  | 7 => some (glyphOr p x d.pOnes)
  | 8 => some p.glyph[10]
  | 9 => none

/-- Every scan state but 9 shows its glyph. -/
theorem scanAction_of_ne_nine {k : Fin 10} (hk : k ≠ 9) (s : State) :
    ∃ g n, scanGlyph s.params (Config.anyByte s.draws) s.digits k = some g ∧
      scanAction k s = showGlyph g { s with draws := n } := by
  have digit (d : Byte) : ∃ g n, some (glyphNow d s) = some g ∧ showDigit d s = showGlyph g { s with draws := n } :=
    ⟨_, _, rfl, rfl⟩
  have constant (g : Byte) : ∃ g' n, some g = some g' ∧ showGlyph g s = showGlyph g' { s with draws := n } :=
    ⟨g, s.draws, rfl, rfl⟩
  match k with
  | 0 => exact digit s.digits.tTens
  | 1 => exact digit s.digits.tOnes
  | 2 => exact constant s.params.glyphDp
  | 3 => exact digit s.digits.tTenths
  | 4 => exact constant s.params.glyph[11]
  | 5 => exact digit s.digits.pHundreds
  | 6 => exact digit s.digits.pTens
  | 7 => exact digit s.digits.pOnes
  | 8 => exact constant s.params.glyph[10]
  | 9 => exact absurd rfl hk

/-- A tick whose clock runs advances `SCAN` and keeps `IE` (R208). -/
theorem tickIn_completes {k : Fin 10} {s : State} (hc : clockGives 8 s = true) (hs : s.hung = false) :
    (tickIn k s).hung = false ∧ (tickIn k s).scan = k + 1 ∧ (tickIn k s).ie = s.ie := by
  have running : (scanAction k s).hung = false := by
    obtain e | ⟨g, n, e⟩ := scanAction_cases k s <;> rw [e]
    · exact hs
    · rw [showGlyph_eq (s := { s with draws := n }) hc hs]; exact hs
  obtain ⟨hung, scan, ie, -⟩ | ⟨hung, -⟩ := tickIn_cases k s hs
  · exact ⟨hung, scan, ie⟩
  · rw [(tickIn_scan k s).1, running] at hung; cases hung

/-- A tick whose `SHOW` hangs leaves `SCAN` (R208). -/
theorem tickIn_hangs {k : Fin 10} (hk : k ≠ 9) {s : State} (hc : clockGives 8 s = false) :
    (tickIn k s).hung = true ∧ (tickIn k s).scan = s.scan ∧ (tickIn k s).latch = .deasserted ∧
    (tickIn k s).dout = s.dout := by
  obtain ⟨g, n, -, action⟩ := scanAction_of_ne_nine hk s
  obtain ⟨hung, latch, dout, -⟩ := showGlyph_hangs (g := g) (s := { s with draws := n }) hc
  have stops : tickIn k s = showGlyph g { s with draws := n } := by simp [tickIn, advanceScan, action, hung]
  simp [stops, hung, latch, dout]

/-- Settles O35: `TICK` advances exactly if its frame completes, and all else listed is what no tick writes. -/
theorem tickAdvancesScan : Obligations.TickAdvancesScan := by
  intro s hs
  refine ⟨fun hc => ?_, fun hc hk => ⟨tick s, rfl, tickIn_hangs hk hc⟩⟩
  obtain ⟨hung, scan, ie⟩ := tickIn_completes (k := s.scan) hc hs
  have advanced : (tickIn s.scan s).scan.val = (s.scan.val + 1) % 10 := by rw [scan, Fin.val_add]; rfl
  exact ⟨tickIn s.scan s, rfl, hung, advanced, by simp [ie]⟩

/-! ### A period of the scan (R207, R208) -/

@[simp] theorem commits_append (l m : List Event) : commits (l ++ m) = commits l ++ commits m := by
  induction l with
  | nil => rfl
  | cons e l ih => cases e <;> simp [commits, ih]

/-- The clock pulses that a scan state's tick takes. -/
def scanPulses (k : Fin 10) : Nat := if k = 9 then 0 else 8

/-- The clock pulses that `n` ticks take from scan state `k` on. -/
def pulsesFrom : Nat → Fin 10 → Nat
  | 0, _ => 0
  | n + 1, k => scanPulses k + pulsesFrom n (k + 1)

/-- The glyphs that `n` ticks show from scan state `k` on, while the digits stay as they are. -/
def glyphsFrom (p : Params) (x : Byte) (d : Digits) : Nat → Fin 10 → List Byte
  | 0, _ => []
  | n + 1, k => (scanGlyph p x d k).toList ++ glyphsFrom p x d n (k + 1)

/-- Nine of any ten consecutive scan states send a byte. -/
theorem pulsesFrom_ten : ∀ k : Fin 10, pulsesFrom 10 k = 72 := by decide

/-- Every digit selects an entry of the glyph table (R72). -/
def Digits.InTable (d : Digits) : Prop := ∀ j : Digit, (d.get j).toNat < 12

/-- Digits inside the table need no free byte. -/
theorem scanGlyph_of_inTable {d : Digits} (hd : d.InTable) (p : Params) (x y : Byte) (k : Fin 10) :
    scanGlyph p x d k = scanGlyph p y d k := by
  have same (j : Digit) : some (glyphOr p x (d.get j)) = some (glyphOr p y (d.get j)) := by
    rw [glyphOr_of_lt (hd j), glyphOr_of_lt (hd j)]
  match k with
  | 0 => exact same .tTens
  | 1 => exact same .tOnes
  | 2 => rfl
  | 3 => exact same .tTenths
  | 4 => rfl
  | 5 => exact same .pHundreds
  | 6 => exact same .pTens
  | 7 => exact same .pOnes
  | 8 => rfl
  | 9 => rfl

/-- A run of the handler whose action leaves a running block (R269, R272). -/
theorem runIsr_eq {s t : State} (h : scanAction s.scan (irqEnter s) = t) (ht : t.hung = false) :
    runIsr s = irqReturn { t with scan := s.scan + 1 } := by
  have ticked : tick (irqEnter s) = { t with scan := s.scan + 1 } := tickIn_eq h ht
  simp [runIsr, ticked, ht]

/-- A run of the handler with the clock its scan state needs, and `m` pulses more. -/
theorem runIsr_completes {m : Nat} {s : State} (hs : s.hung = false) (hc : clockGives (scanPulses s.scan + m) s = true) :
    (runIsr s).hung = false ∧ clockGives m (runIsr s) = true ∧
    commits (runIsr s).hist =
      commits s.hist ++ (scanGlyph s.params (Config.anyByte s.draws) s.digits s.scan).toList := by
  by_cases hk : s.scan = 9
  · have ran := runIsr_eq (s := s) (t := irqEnter s) (by rw [hk]; rfl) hs
    have gives : clockGives m s = true := by simpa [hk, scanPulses] using hc
    rw [ran]
    exact ⟨hs, gives, by simp [hk, scanGlyph, commits]⟩
  · obtain ⟨g, n, glyph, action⟩ := scanAction_of_ne_nine hk (irqEnter s)
    have gives : clockGives (8 + m) s = true := by simpa [hk, scanPulses] using hc
    have ran := runIsr_eq (action.trans (showGlyph_eq (clockGives_mono gives (Nat.le_add_right 8 m)) hs)) hs
    have left : clockGives m (runIsr s) = true := clockGives_after gives (by rw [ran]; rfl)
    refine ⟨by rw [ran]; exact hs, left, ?_⟩
    have shown : scanGlyph s.params (Config.anyByte s.draws) s.digits s.scan = some g := glyph
    rw [ran, shown]
    simp [glyphFrameEnd, commits]

/-- A returning run of the handler leaves `SCAN` one further. -/
theorem runIsr_scan {s : State} (hs : s.hung = false) (h : (runIsr s).hung = false) : (runIsr s).scan = s.scan + 1 := by
  obtain ⟨-, -, -, -, scan, -⟩ | ⟨hung, -⟩ := runIsr_cases s hs
  · exact scan
  · rw [h] at hung; cases hung

/-- `n` runs of the handler with the clock they need return, and advance `SCAN` by one each. -/
theorem runIsr_iterate_scan {n : Nat} {s : State} (hs : s.hung = false) (hc : clockGives (pulsesFrom n s.scan) s = true) :
    (runIsr^[n] s).hung = false ∧ (runIsr^[n] s).scan = (· + 1)^[n] s.scan := by
  induction n generalizing s with
  | zero => exact ⟨hs, rfl⟩
  | succ n ih =>
    obtain ⟨hung, left, -⟩ := runIsr_completes hs hc
    have scan := runIsr_scan hs hung
    rw [Function.iterate_succ_apply, Function.iterate_succ_apply, ← scan]
    exact ih hung (by rwa [scan])

/-- `n` runs of the handler with the clock they need commit the glyphs of their scan states in order. -/
theorem runIsr_iterate_commits {n : Nat} {s : State} (hs : s.hung = false)
    (hc : clockGives (pulsesFrom n s.scan) s = true) (hd : s.digits.InTable) (x : Byte) :
    commits (runIsr^[n] s).hist = commits s.hist ++ glyphsFrom s.params x s.digits n s.scan := by
  induction n generalizing s with
  | zero => simp [glyphsFrom]
  | succ n ih =>
    obtain ⟨hung, left, shown⟩ := runIsr_completes hs hc
    have scan := runIsr_scan hs hung
    have later := ih hung (by rwa [scan]) (by simpa using hd)
    rw [Function.iterate_succ_apply, later, shown, scanGlyph_of_inTable hd _ _ x, scan]
    simp [glyphsFrom]

/-- Settles O36: ten ticks from any scan state take 72 pulses, so all return; `SCAN` has gone round, and the ten glyphs from
state 0 are the list. -/
theorem tenFiringsAreOnePeriod : Obligations.TenFiringsAreOnePeriod := by
  intro s hs hc
  have gives : clockGives (pulsesFrom 10 s.scan) s = true := by rwa [pulsesFrom_ten]
  have round : ∀ k : Fin 10, (· + 1)^[10] k = k := by decide
  obtain ⟨hung, scan⟩ := runIsr_iterate_scan hs gives
  refine ⟨hung, scan.trans (round _), fun h h0 h1 h3 h5 h6 h7 => ?_⟩
  have inTable : s.digits.InTable
    | .tTens => h0
    | .tOnes => h1
    | .tTenths => h3
    | .pHundreds => h5
    | .pTens => h6
    | .pOnes => h7
  have shown := runIsr_iterate_commits hs gives inTable 0#8
  rw [h] at shown
  rw [shown, ← glyphOr_of_lt h0 _ 0#8, ← glyphOr_of_lt h1 _ 0#8, ← glyphOr_of_lt h3 _ 0#8, ← glyphOr_of_lt h5 _ 0#8,
    ← glyphOr_of_lt h6 _ 0#8, ← glyphOr_of_lt h7 _ 0#8]
  rfl

end Sys2Proof.Machine

namespace Sys2Proof.Machine

open Sys2Proof

/-! ### The µops of the fixed sequence (R230 to R233) -/

theorem exec_uopInstr (u : Uop) (s : State) : exec (uopInstr u) s = uopEffect u s := by
  cases u <;> rfl

/-- The values at a list's positions, in order, are those of its elements. -/
theorem finRange_map_getElem {α β : Type} (f : α → β) (l : List α) {n : Nat} (h : l.length = n) :
    (List.finRange n).map (fun i => f (l[i.val]'(h ▸ i.isLt))) = l.map f := by
  subst h
  exact List.ext_getElem (by simp) (by simp)

/-- Settles O47: the positions of a phase carry its list of µops in order, and each list spells out its frames. -/
theorem fixedSequenceMicroOperations : Obligations.FixedSequenceMicroOperations := by
  intro p d
  refine ⟨finRange_map_getElem uopInstr _ (bootUops_length p), ?_, rfl⟩
  have poll := finRange_map_getElem uopInstr _ (pollUops_length p)
  refine poll.trans ?_
  simp [pollUops, configUops, readtripleUops, tripleFrame, uopInstr, tripleByte, d]

/-- Settles O44: each operand selects its digit, which is published. -/
theorem publishOneDigit : Obligations.PublishOneDigit := by
  intro s
  have published (k : Digit) : exec (.pub (selectorByte k)) s = .next (publish k s) := execPub_selectorByte k s
  exact ⟨published .tTens, published .tOnes, published .tTenths, published .pHundreds, published .pTens, published .pOnes⟩

/-- Settles O45: `IDLE` answers with the state it finds. -/
theorem idleChangesNothing : Obligations.IdleChangesNothing := fun _ => rfl

/-! ### What no µop changes -/

/-- `MAIN` captures into its reply bytes, the coefficients and the samples only (R108). -/
@[simp] theorem capture_frame (u : Uop) (s : State) :
    (capture u s).program = s.program ∧ (capture u s).misreads = s.misreads ∧ (capture u s).mseq = s.mseq ∧
    (capture u s).ctx = s.ctx ∧ (capture u s).ie = s.ie ∧ (capture u s).tickPend = s.tickPend ∧
    (capture u s).hung = s.hung := by
  unfold capture
  split
  · rename_i k; cases k <;> repeat' constructor
  · rename_i c; cases c <;> repeat' constructor
  · rename_i c; cases c <;> repeat' constructor
  · repeat' constructor

theorem uopEffect_frame {u : Uop} {s t : State} (h : uopEffect u s = .next t) :
    t.program = s.program ∧ t.mseq = s.mseq ∧ t.ctx = s.ctx ∧ t.tickPend = s.tickPend ∧
    t.sched.arrivals = s.sched.arrivals ∧ t.sched.arrivalsOnward = s.sched.arrivalsOnward ∧
    t.sched.idles = s.sched.idles ∧ t.sched.idlesOnward = s.sched.idlesOnward := by
  cases u with
  | csa => obtain ⟨-, rfl⟩ := execCsa_next h; simp
  | csd _ => obtain ⟨-, rfl⟩ := execCsd_next h; simp
  | latd => cases h; simp
  | lata => cases h; simp
  | xfer b _ => cases h; simp
  | compt => cases h; simp
  | compp => cases h; simp
  | pub k => cases (execPub_selectorByte k s).symm.trans h; simp
  | tcfg => obtain ⟨-, -, -, rfl⟩ := execTcfg_next h; simp
  | arm => cases h; simp
  | idle => cases h; simp

/-- A µop changes neither the parameters nor the placed bytes, nor `MSEQ`, `CTX`, `TICK_PEND` and the environment's choices,
but for the clock. -/
theorem runUop_frame {u : Uop} {s t : State} (h : runUop u s = .next t) :
    t.params = s.params ∧ t.program = s.program ∧ t.mseq = s.mseq ∧ t.ctx = s.ctx ∧ t.tickPend = s.tickPend ∧
    t.sched.arrivals = s.sched.arrivals ∧ t.sched.arrivalsOnward = s.sched.arrivalsOnward ∧
    t.sched.idles = s.sched.idles ∧ t.sched.idlesOnward = s.sched.idlesOnward := by
  obtain ⟨v, hv, ⟨-, rfl⟩ | ⟨-, rfl⟩⟩ := runUop_next h
  · exact ⟨uopEffect_params hv, uopEffect_frame hv⟩
  · simpa using And.intro (uopEffect_params hv) (uopEffect_frame hv)

/-! ### A step of `MAIN` (R240, R241) -/

/-- Settles O48: no µop writes `MSEQ` or takes an idling choice, so the advance goes from the position and the choice found; a
hung transfer is not followed by one. -/
theorem sequenceSuccessor : Obligations.SequenceSuccessor := by
  intro s t h
  obtain ⟨v, hv, after⟩ := andThen_next h
  obtain ⟨-, -, mseq, -, -, -, -, idles, onward⟩ := runUop_frame hv
  have choice : v.sched.nextIdle = s.sched.nextIdle := nextIdle_congr idles onward
  obtain ⟨hung, rfl⟩ | ⟨running, advanced⟩ := after
  · exact ⟨fun _ => mseq, by simp [hung]⟩
  · cases advanced
    have next : (advanceMseq v).mseq = mseqNext s.sched.nextIdle s.mseq := by rw [advanceMseq_writes, choice, mseq]
    refine ⟨by simp [running], fun _ => ⟨fun i hi => ?_, fun i hi => ?_, fun hi => ?_⟩⟩
    · rw [next, hi]
      exact ⟨fun h => dif_pos (Nat.succ_lt_succ h), fun h => dif_neg (by omega)⟩
    · rw [next, hi]
      exact ⟨fun h => dif_pos (Nat.succ_lt_succ h), fun h => dif_neg (by omega)⟩
    · rw [next, hi]
      rfl

/-- The capture of a µop's result and the advance of `MSEQ` as one continuation (R230): a capture hangs nothing. -/
theorem mainUop_eq (s : State) : mainUop s =
    andThen (uopEffect (mseqUop s.params s.mseq) s) fun t =>
      .next (advanceMseq (capture (mseqUop s.params s.mseq) t)) := by
  unfold mainUop runUop
  cases uopEffect (mseqUop s.params s.mseq) s with
  | next t => cases ht : t.hung <;> simp [ht]
  | fault r => rfl
  | refused r => rfl

theorem runNext_eq_mainUop {s : State} (hb : s.program.bytes = []) (hc : s.ctx = .main) : runNext s = mainUop s := by
  simp [runNext, ownMove, hb, hc]

/-- Settles O56: the step is the context's own move, and the operation of a µop is the µop's effect. -/
theorem stepRunsTheSequence : Obligations.StepRunsTheSequence := by
  intro s hs hr ha hb hc
  rw [step_eq_runNext hs hr ha, runNext_eq_mainUop (s := takeArrival s) hb hc, mainUop_eq, exec_uopInstr]
  rfl

end Sys2Proof.Machine

namespace Sys2Proof.Machine

open Sys2Proof

/-! ### The fixed sequence in order (R235, R303, R305)

What `SequenceRunning` asks at a position is finite data. Each µop acts on that data, and at every position of `MSEQ` its
action leads from the position's data to the next one's. -/

/-- What order asks of a state, as data: whether `CS` is asserted, the timer runs and the interrupt system is enabled, and
which registers must have been written. -/
structure Milestones where
  envelope : Bool
  timer : Bool
  armed : Bool
  firstPair : Bool
  secondPair : Bool
  thirdPair : Bool
  temperature : Bool
  pressure : Bool

/-- What `SequenceRunning` asks at a position. -/
def milestonesAt (m : MSeq) : Milestones where
  envelope := inEnvelope m
  timer := decide (22 ≤ bootPlace m)
  armed := decide (23 ≤ bootPlace m)
  firstPair := decide (7 ≤ bootPlace m)
  secondPair := decide (14 ≤ bootPlace m)
  thirdPair := decide (21 ≤ bootPlace m)
  temperature := decide (10 ≤ pollPlace m)
  pressure := decide (16 ≤ pollPlace m)

/-- A state that has what the milestones ask: the lines and flags exactly, the registers at least. -/
structure Meets (c : Milestones) (s : State) : Prop where
  ctx_main : s.ctx = .main
  latch_rest : s.latch = .asserted
  envelope : s.cs = .asserted ↔ c.envelope = true
  armed : s.ie = c.armed
  timer : s.trun = c.timer
  first_pair : c.firstPair = true → s.t1.written = true ∧ s.t2.written = true
  second_pair : c.secondPair = true → s.t3.written = true ∧ s.p1.written = true
  third_pair : c.thirdPair = true → s.p2.written = true ∧ s.p3.written = true
  temperature : c.temperature = true → s.adct.written = true
  pressure : c.pressure = true → s.adcp.written = true

theorem sequenceRunning_iff_meets {s : State} : SequenceRunning s ↔ Meets (milestonesAt s.mseq) s := by
  refine ⟨fun h => ?_, fun h => ?_⟩
  · obtain ⟨ctx, latch, cs, ie, trun, first, second, third, temperature, pressure⟩ := h
    refine ⟨ctx, latch, cs, ?_, ?_, ?_, ?_, ?_, ?_, ?_⟩ <;> simpa [milestonesAt, Bool.eq_iff_iff (b := decide _)]
  · obtain ⟨ctx, latch, cs, ie, trun, first, second, third, temperature, pressure⟩ := h
    simp only [milestonesAt, decide_eq_true_eq] at cs first second third temperature pressure
    exact ⟨ctx, latch, cs, by simp [ie, milestonesAt], by simp [trun, milestonesAt], first, second, third, temperature,
      pressure⟩

/-- What the end of a frame writes (R61, R108). -/
def Milestones.store (c : Milestones) : Dest → Milestones
  | .nothing => c
  | .pair .c88 => { c with firstPair := true }
  | .pair .c8A => { c with secondPair := true }
  | .pair .c8E => { c with thirdPair := true }
  | .sample .cFA => { c with temperature := true }
  | .sample .cFB => { c with pressure := true }

/-- The milestones after a µop; none where it would be refused, read an unwritten register or move the latch. -/
def Milestones.after (c : Milestones) : Uop → Option Milestones
  | .csa => if c.envelope then none else some { c with envelope := true }
  | .csd d => if c.envelope then some ({ c with envelope := false }.store d) else none
  | .compt => if c.temperature && c.firstPair && c.secondPair then some c else none
  | .compp => if c.pressure then some c else none
  | .tcfg => some { c with timer := true }
  | .arm => some { c with armed := true }
  | .xfer _ _ | .pub _ | .idle => some c
  | .latd | .lata => none

/-- Milestones that grant what others ask. -/
abbrev Milestones.Covers (c d : Milestones) : Prop :=
  c.envelope = d.envelope ∧ c.timer = d.timer ∧ c.armed = d.armed ∧ d.firstPair ≤ c.firstPair ∧
  d.secondPair ≤ c.secondPair ∧ d.thirdPair ≤ c.thirdPair ∧ d.temperature ≤ c.temperature ∧ d.pressure ≤ c.pressure

theorem Meets.of_covers {c d : Milestones} {s : State} (h : Meets c s) (hc : c.Covers d) : Meets d s := by
  obtain ⟨envelope, timer, armed, first, second, third, temperature, pressure⟩ := hc
  exact ⟨h.ctx_main, h.latch_rest, envelope ▸ h.envelope, armed ▸ h.armed, timer ▸ h.timer,
    fun hd => h.first_pair (first hd), fun hd => h.second_pair (second hd), fun hd => h.third_pair (third hd),
    fun hd => h.temperature (temperature hd), fun hd => h.pressure (pressure hd)⟩

/-! #### The positions -/

/-- A µop without the bytes and the digit that the parameters choose. -/
def Uop.erase : Uop → Uop
  | .xfer _ _ => .xfer 0#8 none
  | .pub _ => .pub .tTens
  | u => u

theorem Milestones.after_erase (c : Milestones) (u : Uop) : c.after u.erase = c.after u := by
  cases u <;> rfl

theorem pollUops_erase (p : Params) : (pollUops p).map Uop.erase = (pollUops Params.default).map Uop.erase := by
  have publications (q : Params) : (q.publishOrder.toList.map Uop.pub).map Uop.erase = List.replicate 6 (.pub .tTens) := by
    simp [Uop.erase, Function.comp_def, List.map_const']
  simp only [pollUops, List.map_append, publications]
  rfl

/-- Which µops stand at the positions does not depend on the parameters, but for bytes and digits. -/
theorem mseqUop_erase (p : Params) (m : MSeq) : (mseqUop p m).erase = (mseqUop Params.default m).erase := by
  have at_position {us vs : List Uop} (h : us.map Uop.erase = vs.map Uop.erase) {i : Nat} (hu : i < us.length)
      (hv : i < vs.length) : us[i].erase = vs[i].erase := by
    rw [← List.getElem_map Uop.erase (h := by simpa), ← List.getElem_map Uop.erase (h := by simpa)]
    exact List.getElem_of_eq h _
  cases m with
  | boot i => exact at_position (us := bootUops p) (vs := bootUops Params.default) rfl _ _
  | poll i => exact at_position (pollUops_erase p) _ _
  | idle => rfl

/-- Whether the µop at a position leads to what the next position asks. -/
abbrev LeadsOn (u : Uop) (m n : MSeq) : Prop := ∃ c ∈ (milestonesAt m).after u, c.Covers (milestonesAt n)

theorem mseqUop_leadsOn (p : Params) (b : Bool) (m : MSeq) : LeadsOn (mseqUop p m) m (mseqNext b m) := by
  suffices default : LeadsOn (mseqUop Params.default m) m (mseqNext b m) by
    rwa [LeadsOn, ← Milestones.after_erase, mseqUop_erase, Milestones.after_erase]
  cases m with
  | boot i => revert b i; decide
  | poll i => revert b i; decide
  | idle => revert b; decide

/-! #### The µops -/

theorem execTcfg_of_timerOk {s : State} (h : s.params.timerOk) : execTcfg s = .next (startTimer s) := by
  obtain ⟨hz, fits⟩ := h
  rw [execTcfg, if_neg hz.ne', if_pos fits]

theorem runUop_tcfg {s : State} (hs : s.hung = false) (h : s.params.timerOk) : runUop .tcfg s = .next (startTimer s) := by
  have started : uopEffect .tcfg s = .next (startTimer s) := execTcfg_of_timerOk h
  rw [runUop, started]
  exact andThen_of_running hs

/-- Only the compensations add to the record of unwritten reads (R303). -/
theorem xfer_misreads (b : Byte) (s : State) : (xfer b s).misreads = s.misreads := by
  cases h : clockGives 8 s with
  | true => rw [xfer_eq h]
  | false => rw [xfer_eq_of_stalled h]

theorem showGlyph_misreads (g : Byte) (s : State) : (showGlyph g s).misreads = s.misreads := by
  have sent : (xfer g (deassertLatch s)).misreads = s.misreads := xfer_misreads g (deassertLatch s)
  unfold showGlyph
  simp only []
  split <;> exact sent

theorem tickIn_misreads (k : Fin 10) (s : State) : (tickIn k s).misreads = s.misreads := by
  have action : (scanAction k s).misreads = s.misreads := by
    obtain e | ⟨g, n, e⟩ := scanAction_cases k s <;> rw [e]
    exact showGlyph_misreads g { s with draws := n }
  unfold tickIn advanceScan
  split <;> exact action

theorem runIsr_misreads (s : State) : (runIsr s).misreads = s.misreads := by
  have ticked : (tick (irqEnter s)).misreads = s.misreads := tickIn_misreads _ (irqEnter s)
  unfold runIsr
  simp only []
  split <;> exact ticked

section

variable {c d : Milestones} {u : Uop} {s : State} (h : Meets c s)
include h

/-- A state that meets the milestones reads only written registers in `COMPT`. -/
theorem Meets.tempMisreads_eq_nil (ht : c.temperature = true) (h1 : c.firstPair = true) (h2 : c.secondPair = true) :
    tempMisreads s = [] := by
  simp [tempMisreads, h.temperature ht, h.first_pair h1, h.second_pair h2]

theorem Meets.pressureMisreads_eq_nil (hp : c.pressure = true) : pressureMisreads s = [] := by
  simp [pressureMisreads, h.pressure hp]

/-- The end of a frame writes the registers of its results, and writes none back to unwritten. -/
theorem Meets.capture_csd (dst : Dest) : Meets (c.store dst) (capture (.csd dst) s) := by
  cases dst with
  | nothing => exact h
  | pair p =>
    cases p with
    | c88 => exact { h with first_pair := fun _ => ⟨rfl, rfl⟩ }
    | c8A => exact { h with second_pair := fun _ => ⟨rfl, rfl⟩ }
    | c8E => exact { h with third_pair := fun _ => ⟨rfl, rfl⟩ }
  | sample t =>
    cases t with
    | cFA => exact { h with temperature := fun _ => rfl }
    | cFB => exact { h with pressure := fun _ => rfl }

/-- A transfer inside or outside an envelope moves no line and writes no register but `MAIN`'s reply bytes. -/
theorem Meets.capture_xfer (b : Byte) (k : Option Slot) (hc : clockGives 8 s = true) :
    Meets c (capture (.xfer b k) (xfer b s)) := by
  rw [xfer_eq hc]
  cases k with
  | none => exact { h with }
  | some k => cases k <;> exact { h with }

/-- Where a µop has milestones to lead to it goes on, reads only written registers, and leads to them unless it hangs. -/
theorem Meets.runUop (hs : s.hung = false) (hp : s.params.timerOk) (hd : d ∈ c.after u) :
    ∃ t, runUop u s = .next t ∧ t.misreads = s.misreads ∧ (t.hung = false → Meets d t) := by
  cases u with
  | csa =>
    obtain ⟨closed, rfl⟩ : c.envelope = false ∧ { c with envelope := true } = d := by simpa [Milestones.after] using hd
    have hcs : s.cs = .deasserted := by
      cases hl : s.cs with
      | deasserted => rfl
      | asserted => simp [h.envelope.1 hl] at closed
    exact ⟨assertCs s, runUop_csa hs hcs, rfl, fun _ => { h with envelope := by simp }⟩
  | csd dst =>
    obtain ⟨opened, rfl⟩ : c.envelope = true ∧ { c with envelope := false }.store dst = d := by
      simpa [Milestones.after] using hd
    have closed : Meets { c with envelope := false } (deassertCs s) := { h with envelope := by simp }
    exact ⟨_, runUop_csd hs (h.envelope.2 opened), by simp, fun _ => closed.capture_csd dst⟩
  | latd => cases hd
  | lata => cases hd
  | xfer b k =>
    cases hd
    cases hc : clockGives 8 s with
    | true => exact ⟨_, runUop_xfer hs hc, by simp [xfer_misreads], fun _ => h.capture_xfer b k hc⟩
    | false =>
      obtain ⟨hung, -⟩ := xfer_hangs (b := b) hc
      exact ⟨xfer b s, andThen_of_hung hung, xfer_misreads b s, by simp [hung]⟩
  | compt =>
    obtain ⟨⟨⟨ht, h1⟩, h2⟩, rfl⟩ : ((c.temperature = true ∧ c.firstPair = true) ∧ c.secondPair = true) ∧ c = d := by
      simpa [Milestones.after] using hd
    exact ⟨compensateTemp s, andThen_of_running hs, by simp [h.tempMisreads_eq_nil ht h1 h2], fun _ => { h with }⟩
  | compp =>
    obtain ⟨hp, rfl⟩ : c.pressure = true ∧ c = d := by simpa [Milestones.after] using hd
    exact ⟨compensatePressure s, andThen_of_running hs, by simp [h.pressureMisreads_eq_nil hp], fun _ => { h with }⟩
  | pub k => cases hd; exact ⟨publish k s, runUop_pub hs, rfl, fun _ => { h with }⟩
  | tcfg =>
    cases hd
    exact ⟨startTimer s, runUop_tcfg hs hp, rfl, fun _ => { h with timer := by simp }⟩
  | arm => cases hd; exact ⟨enableIrq s, andThen_of_running hs, rfl, fun _ => { h with armed := by simp }⟩
  | idle => cases hd; exact ⟨s, andThen_of_running hs, rfl, fun _ => h⟩

end

/-! #### Steps -/

theorem SequenceInv.meets {s : State} (h : SequenceInv s) (hs : s.hung = false) : Meets (milestonesAt s.mseq) s :=
  sequenceRunning_iff_meets.1 (h.in_order.resolve_left (by simp [hs]))

/-- Only the order is at stake where the parameters, the placed bytes and the record of unwritten reads stay as they are. -/
theorem SequenceInv.of_order {s t : State} (h : SequenceInv s)
    (e : t.params = s.params ∧ t.program = s.program ∧ t.misreads = s.misreads) (o : t.hung = true ∨ SequenceRunning t) :
    SequenceInv t := by
  obtain ⟨params, program, misreads⟩ := e
  exact ⟨program ▸ h.nothing_placed, params ▸ h.timer_ok, misreads ▸ h.nothing_misread, o⟩

/-- The µop at `MSEQ` goes on, and unless it hangs leads to the next position in order. -/
theorem SequenceInv.mainUop {s : State} (h : SequenceInv s) (hs : s.hung = false) :
    ∃ t, mainUop s = .next t ∧ SequenceInv t := by
  obtain ⟨d, after, covers⟩ := mseqUop_leadsOn s.params s.sched.nextIdle s.mseq
  obtain ⟨v, hv, misreads, meets⟩ := (h.meets hs).runUop hs h.timer_ok after
  obtain ⟨params, program, mseq, -, -, -, -, idles, onward⟩ := runUop_frame hv
  rw [Machine.mainUop, hv]
  cases hh : v.hung with
  | true => exact ⟨v, andThen_of_hung hh, h.of_order ⟨params, program, misreads⟩ (.inl hh)⟩
  | false =>
    have next : (advanceMseq v).mseq = mseqNext s.sched.nextIdle s.mseq := by
      rw [advanceMseq_writes, nextIdle_congr idles onward, mseq]
    have reached : Meets (milestonesAt (advanceMseq v).mseq) (advanceMseq v) := by
      rw [next]
      exact { (meets hh).of_covers covers with }
    exact ⟨advanceMseq v, andThen_of_running hh,
      h.of_order ⟨params, program, misreads⟩ (.inr (sequenceRunning_iff_meets.2 reached))⟩

/-- A run of the handler returns with everything the order speaks of as it was, or hangs (R272). -/
theorem SequenceInv.runIsr {s : State} (h : SequenceInv s) (hs : s.hung = false) : SequenceInv (runIsr s) := by
  refine h.of_order ⟨by simp, by simp, runIsr_misreads s⟩ ?_
  obtain ⟨-, ctx, ie, mseq, -, -, latch⟩ | ⟨hung, -⟩ := runIsr_cases s hs
  · right
    obtain ⟨-, rest, envelope, armed, timer, first, second, third, temperature, pressure⟩ := h.meets hs
    rw [sequenceRunning_iff_meets, mseq]
    exact ⟨ctx, latch.elim (·.trans rest) id, by simpa using envelope, ie.trans armed, by simpa using timer,
      by simpa using first, by simpa using second, by simpa using third, by simpa using temperature,
      by simpa using pressure⟩
  · exact .inl hung

/-- Settles O59: a compare-match and a step of a hung block change nothing that the invariant speaks of; a run of the handler
and the µop at `MSEQ` keep the order or hang. -/
theorem fixedSequenceNeverStops : Obligations.FixedSequenceNeverStops := by
  intro s h
  have taken : SequenceInv (takeArrival s) := h.of_order ⟨rfl, rfl, rfl⟩ (h.in_order.imp id fun r => { r with })
  cases ha : s.sched.nextArrival with
  | true =>
    exact ⟨compareMatch (takeArrival s), by simp [step, ha],
      taken.of_order ⟨rfl, rfl, rfl⟩ (taken.in_order.imp id fun r => { r with })⟩
  | false =>
    cases hs : s.hung with
    | true => exact ⟨takeArrival s, by simp [step, blockMove, ha, hs], taken⟩
    | false =>
      cases hr : irqReady s with
      | true =>
        have ready : irqReady (takeArrival s) = true := hr
        exact ⟨runIsr (takeArrival s), by simp [step, blockMove, ha, hs, ready], taken.runIsr hs⟩
      | false =>
        rw [step_eq_runNext hs hr ha, runNext_eq_mainUop taken.nothing_placed (taken.meets hs).ctx_main]
        exact taken.mainUop hs

end Sys2Proof.Machine

namespace Sys2Proof.Machine

open Sys2Proof

/-- Whether anything can disturb a block is decided by the arrivals to come and what the interrupt condition reads (R267). -/
theorem Undisturbed.of_eq {s t : State} (h : Undisturbed s)
    (e : t.sched.arrivals = s.sched.arrivals ∧ t.sched.arrivalsOnward = s.sched.arrivalsOnward ∧ t.ctx = s.ctx ∧
      t.ie = s.ie ∧ t.tickPend = s.tickPend) : Undisturbed t := by
  obtain ⟨arrivals, onward, ctx, ie, pend⟩ := e
  exact ⟨⟨arrivals.trans h.1.1, onward.trans h.1.2⟩, by simpa [irqReady, ctx, ie, pend] using h.2⟩

/-! ### `BOOT` (R232) -/

/-- `BOOT` is `LOADCAL`, then `TCFG` and `ARM` (R232). -/
theorem bootUops_eq (p : Params) : bootUops p = loadcalUops p ++ [.tcfg, .arm] := rfl

theorem runUops_arm {s : State} (hs : s.hung = false) : runUops [.arm] s = .next (enableIrq s) :=
  (andThen_next_self _).trans (andThen_of_running hs)

/-- The state after an undisturbed `BOOT`. -/
def bootEnd (s : State) : State := enableIrq (startTimer (calibrated s))

/-- `BOOT` with nothing to disturb it. -/
theorem exec_boot_undisturbed {s : State} (hs : s.hung = false) (hu : Undisturbed s) (hcs : s.cs = .deasserted)
    (hc : clockGives 120 s = true) (hp : s.params.timerOk) : exec .boot s = .next (bootEnd s) := by
  have loaded := runUops_loadcalUops hs hu hcs hc
  have started := runUop_tcfg (s := calibrated s) hs hp
  change runUops (bootUops s.params) s = _
  rw [bootUops_eq, runUops_append loaded hs hu, runUops_cons started hs hu]
  exact runUops_arm hs

/-! #### Whatever compare-matches arrive (R161) -/

/-- Two lists of µops one after the other: if the first ends in an environment that is not keeping the block there for ever,
the second follows across a boundary. -/
theorem runUops_append_boundary {us : List Uop} (hus : us ≠ []) {v : Uop} {vs : List Uop} {s t : State}
    (h : runUops us s = .next t) (ht : t.hung = false) (ha : t.sched.arrivalsOnward ≠ .always) :
    runUops (us ++ v :: vs) s = afterBoundary (boundary t) (runUops (v :: vs)) := by
  induction us generalizing s with
  | nil => exact absurd rfl hus
  | cons u rest ih =>
    obtain ⟨w, hw, ⟨hh, rfl⟩ | ⟨hr, hk⟩⟩ := andThen_next h
    · simp [hh] at ht
    rw [List.cons_append, runUops, hw, andThen_of_running hr]
    cases rest with
    | nil => cases hk; rfl
    | cons x r =>
      simp only [List.cons_append] at hk ⊢
      cases hb : boundary w with
      | starved y => rw [hb] at hk; cases hk; exact absurd (boundary_starved hb).2 ha
      | goes y =>
        rw [hb, afterBoundary] at hk
        obtain ⟨z, hz, ⟨hh, rfl⟩ | ⟨hr', hk'⟩⟩ := andThen_next hk
        · simp [hh] at ht
        · cases hz
          rw [afterBoundary, andThen_of_running hr']
          exact ih (by simp) hk'

theorem BoundariesEnd.onward_ne_always {s : State} (h : BoundariesEnd s) : s.sched.arrivalsOnward ≠ .always := by
  intro ho
  simp [BoundariesEnd, ho] at h

/-- A boundary of a masked block lets the rest of a list run, from a state as calm as the one before it. -/
theorem Calmed.afterBoundary {s t : State} (h : Calmed s t) (hs : s.hung = false) (us : List Uop) :
    ∃ v, afterBoundary (Machine.boundary s) (runUops us) = runUops us v ∧ v.hung = false ∧ Calmed v t := by
  have quiet : Undisturbed t := h.calm_eq ▸ calm_undisturbed s
  have crossed := h.boundary hs
  rw [boundary_undisturbed quiet] at crossed
  cases hb : Machine.boundary s with
  | starved v => rw [hb] at crossed; exact crossed.elim
  | goes v =>
    rw [hb] at crossed
    have running : v.hung = false := by rw [← Calmed.hung crossed, h.hung, hs]
    exact ⟨v, andThen_of_running running, running, crossed⟩

/-- With the interrupt masked, `LOADCAL` ends as it does undisturbed, but for the compare-matches. -/
theorem runUops_loadcalUops_masked {s : State} (hb : BoundariesEnd s) (hs : s.hung = false) (hie : s.ie = false)
    (hcs : s.cs = .deasserted) (hc : clockGives 120 s = true) :
    ∃ t, runUops (loadcalUops s.params) s = .next t ∧ Calmed t (calibrated (calm s)) := by
  have undisturbed : runUops (loadcalUops s.params) (calm s) = .next (calibrated (calm s)) :=
    runUops_loadcalUops (s := calm s) hs (calm_undisturbed s) hcs hc
  have same := (wholeFrames_loadcalUops s.params).calmed ⟨hie, hb, rfl⟩
  rw [undisturbed] at same
  obtain ⟨t, _, runs, ⟨⟩, calmed⟩ | ⟨_, -, ⟨⟩⟩ | ⟨_, -, ⟨⟩⟩ := matched_cases same
  exact ⟨t, runs, calmed⟩

/-- With the interrupt masked up to its last µop, `BOOT` starts the timer and arms from where `LOADCAL` ends. -/
theorem exec_boot_of_loadcal {s t : State} (loaded : exec .loadcal s = .next t) (hs : t.hung = false) (hie : t.ie = false)
    (hb : BoundariesEnd t) (hp : t.params.timerOk) :
    ∃ pend sched, exec .boot s = .next { enableIrq (startTimer t) with tickPend := pend, sched := sched } := by
  have from_loadcal : Calmed t (calm t) := ⟨hie, hb, rfl⟩
  obtain ⟨v, goes, hv, calmed⟩ := from_loadcal.afterBoundary hs [.tcfg, .arm]
  have params : v.params = t.params := (congrArg State.params calmed.calm_eq).symm
  have started := runUop_tcfg hv (params ▸ hp)
  have timed : Calmed (startTimer v) (startTimer (calm t)) := calmed.map startTimer calmed.masked rfl rfl
  obtain ⟨w, goes', hw, calmed'⟩ := timed.afterBoundary hv [.arm]
  obtain ⟨pend, sched, rfl⟩ := eq_of_calm_eq (s := w) (t := startTimer t) calmed'.calm_eq.symm
  refine ⟨pend, sched, ?_⟩
  change runUops (bootUops s.params) s = _
  rw [bootUops_eq, runUops_append_boundary (by simp [loadcalUops, readpairUops, pairFrame]) loaded hs
    hb.onward_ne_always, goes, runUops, started, andThen_of_running (s := startTimer v) hv]
  exact goes'.trans (runUops_arm hw)

/-- Settles O49: up to its last two µops `BOOT` is `LOADCAL` (O20), and those change `TRUN`, `CMP` and `IE`, whatever
compare-matches arrive. -/
theorem bootLoadsConfiguresAndArms : Obligations.BootLoadsConfiguresAndArms := by
  intro s hb hs hie hcs hc hp r
  obtain ⟨t, loaded, t1, t2, t3, p1, p2, p3, hist, hung, -, -, -, cs, env, ie, latch, dout, scan, ctx, mseq, -, -, digits,
    results, adct, adcp, params⟩ := loadcalLoadsSixCoefficients s hb hs hie hcs hc
  obtain ⟨t', loaded', calmed⟩ := runUops_loadcalUops_masked hb hs hie hcs hc
  obtain rfl : t = t' := Host.Outcome.next.inj (loaded.symm.trans loaded')
  obtain ⟨pend, sched, runs⟩ := exec_boot_of_loadcal loaded hung ie calmed.ends (params ▸ hp)
  exact ⟨_, runs, t1, t2, t3, p1, p2, p3, params ▸ rfl, rfl, rfl, hung, hist, cs, env, latch, dout, scan, ctx, mseq, digits,
    results, adct, adcp⟩

/-! ### `POLL` (R233) -/

/-- The state after an undisturbed `READTRIPLE c` (R143). -/
def sampleLoaded (c : TripleCmd) (s : State) : State :=
  storeSample c (tripleFrameEnd (tripleByte c) s.params.dummy s.params.dummy s.params.dummy
    (Config.sensorReg (s.draws + 1) (tripleByte c) 0) (Config.sensorReg (s.draws + 2) (tripleByte c) 1)
    (Config.sensorReg (s.draws + 3) (tripleByte c) 2) s)

theorem runUops_readtripleUops {s : State} (hs : s.hung = false) (hu : Undisturbed s) (hcs : s.cs = .deasserted)
    (hc : clockGives 32 s = true) (c : TripleCmd) :
    runUops (readtripleUops s.params c) s = .next (sampleLoaded c s) := by
  obtain ⟨fFA, fFB⟩ := readtripleFrame s hs hu hcs hc
  cases c with
  | cFA => exact fFA
  | cFB => exact fFB

/-- The sensor configured and both samples read, with nothing to disturb it. -/
def sampled (s : State) : State := sampleLoaded .cFB (sampleLoaded .cFA (configFrameEnd s))

@[simp] theorem sampled_writes (s : State) :
    (sampled s).cs = .deasserted ∧ (sampled s).env = [] ∧
    (sampled s).adct = ⟨sample20 (Config.sensorReg (s.draws + 3) 0xFA#8 0) (Config.sensorReg (s.draws + 4) 0xFA#8 1)
      (Config.sensorReg (s.draws + 5) 0xFA#8 2), true⟩ ∧
    (sampled s).adcp = ⟨sample20 (Config.sensorReg (s.draws + 7) 0xFB#8 0) (Config.sensorReg (s.draws + 8) 0xFB#8 1)
      (Config.sensorReg (s.draws + 9) 0xFB#8 2), true⟩ ∧
    (sampled s).hist = s.hist ++ configTrace s.draws ++ tripleTrace s.params 0xFA#8 (s.draws + 2) ++
      tripleTrace s.params 0xFB#8 (s.draws + 6) := by
  repeat' constructor

@[simp] theorem sampled_frame (s : State) :
    (sampled s).params = s.params ∧ (sampled s).t1 = s.t1 ∧ (sampled s).t2 = s.t2 ∧ (sampled s).t3 = s.t3 ∧
    (sampled s).p1 = s.p1 ∧ (sampled s).p2 = s.p2 ∧ (sampled s).p3 = s.p3 ∧ (sampled s).digits = s.digits ∧
    (sampled s).results = s.results ∧ (sampled s).mseq = s.mseq ∧ (sampled s).scan = s.scan ∧ (sampled s).ctx = s.ctx ∧
    (sampled s).ie = s.ie ∧ (sampled s).tickPend = s.tickPend ∧ (sampled s).trun = s.trun ∧ (sampled s).cmp = s.cmp ∧
    (sampled s).latch = s.latch ∧ (sampled s).dout = s.dout ∧ (sampled s).hung = s.hung ∧
    (sampled s).program = s.program ∧ (sampled s).misreads = s.misreads := by
  repeat' constructor

/-- The three frames take 16, 32 and 32 pulses. -/
@[simp] theorem sampled_sched (s : State) : (sampled s).sched = clockAfter 80 s := by
  have configured : (configFrameEnd s).sched = clockAfter 16 s := rfl
  have first : (sampleLoaded .cFA (configFrameEnd s)).sched = clockAfter 48 s := clockAfter_add configured
  exact clockAfter_add first

/-- The three frames of a polling cycle (R233). -/
theorem runUops_frames {s : State} (hs : s.hung = false) (hu : Undisturbed s) (hcs : s.cs = .deasserted)
    (hc : clockGives 80 s = true) :
    runUops (configUops ++ readtripleUops s.params .cFA ++ readtripleUops s.params .cFB) s = .next (sampled s) := by
  have configured := runUops_configUops hs hu hc hcs (by omega)
  have hc1 : clockGives 64 (configFrameEnd s) = true := clockGives_after (n := 16) hc rfl
  have first := runUops_readtripleUops (s := configFrameEnd s) hs hu rfl (clockGives_mono hc1 (by omega)) .cFA
  have hc2 : clockGives 32 (sampleLoaded .cFA (configFrameEnd s)) = true := clockGives_after (n := 32) hc1 rfl
  have second := runUops_readtripleUops (s := sampleLoaded .cFA (configFrameEnd s)) hs hu rfl hc2 .cFB
  rw [List.append_assoc, runUops_append configured hs hu]
  exact (runUops_append first hs hu).trans second

/-- Digits with those of a list replaced, in order. -/
def Digits.update (d r : Digits) : List Digit → Digits
  | [] => d
  | k :: ks => (d.set k (r.get k)).update r ks

theorem Digits.get_set (d : Digits) (k j : Digit) (v : Byte) : (d.set k v).get j = if j = k then v else d.get j := by
  cases k <;> cases j <;> rfl

theorem Digits.get_update (r : Digits) (ks : List Digit) (j : Digit) (d : Digits) :
    (d.update r ks).get j = if j ∈ ks then r.get j else d.get j := by
  induction ks generalizing d with
  | nil => rfl
  | cons k ks ih =>
    rw [Digits.update, ih, Digits.get_set]
    by_cases hk : j = k <;> simp [hk]

theorem Digits.eq_of_get_eq {d e : Digits} (h : ∀ j, d.get j = e.get j) : d = e := by
  obtain ⟨d0, d1, d2, d3, d4, d5⟩ := d
  obtain ⟨e0, e1, e2, e3, e4, e5⟩ := e
  obtain ⟨rfl, rfl, rfl, rfl, rfl, rfl⟩ : d0 = e0 ∧ d1 = e1 ∧ d2 = e2 ∧ d3 = e3 ∧ d4 = e4 ∧ d5 = e5 :=
    ⟨h .tTens, h .tOnes, h .tTenths, h .pHundreds, h .pTens, h .pOnes⟩
  rfl

/-- The state after the publications `ks`, in order (R237). -/
def published (ks : List Digit) (s : State) : State :=
  { s with
    digits := s.digits.update s.results ks
    hist := s.hist ++ ks.map fun k => .pub k (s.results.get k) }

@[simp] theorem published_writes (ks : List Digit) (s : State) :
    (published ks s).digits = s.digits.update s.results ks ∧
    (published ks s).hist = s.hist ++ ks.map fun k => .pub k (s.results.get k) := by
  repeat' constructor

@[simp] theorem published_frame (ks : List Digit) (s : State) :
    (published ks s).params = s.params ∧ (published ks s).t1 = s.t1 ∧ (published ks s).t2 = s.t2 ∧
    (published ks s).t3 = s.t3 ∧ (published ks s).p1 = s.p1 ∧ (published ks s).p2 = s.p2 ∧ (published ks s).p3 = s.p3 ∧
    (published ks s).adct = s.adct ∧ (published ks s).adcp = s.adcp ∧ (published ks s).results = s.results ∧
    (published ks s).mseq = s.mseq ∧ (published ks s).scan = s.scan ∧ (published ks s).ctx = s.ctx ∧
    (published ks s).ie = s.ie ∧ (published ks s).tickPend = s.tickPend ∧ (published ks s).trun = s.trun ∧
    (published ks s).cmp = s.cmp ∧ (published ks s).cs = s.cs ∧ (published ks s).latch = s.latch ∧
    (published ks s).dout = s.dout ∧ (published ks s).env = s.env ∧ (published ks s).hung = s.hung ∧
    (published ks s).program = s.program ∧ (published ks s).misreads = s.misreads ∧
    (published ks s).sched = s.sched := by
  repeat' constructor

theorem runUops_pubs (ks : List Digit) {s : State} (hs : s.hung = false) (hu : Undisturbed s) :
    runUops (ks.map .pub) s = .next (published ks s) := by
  induction ks generalizing s with
  | nil => simp [runUops, published, Digits.update]
  | cons k ks ih =>
    rw [List.map_cons, runUops_cons (runUop_pub hs) hs hu, ih (s := publish k s) hs hu]
    simp [published, publish, record, Digits.update]

theorem runUops_idles (n : Nat) {s : State} (hs : s.hung = false) (hu : Undisturbed s) :
    runUops (List.replicate n .idle) s = .next s := by
  have idle : runUop .idle s = .next s := andThen_of_running hs
  induction n with
  | zero => rfl
  | succ n ih => rw [List.replicate_succ, runUops_cons idle hs hu, ih]

/-- The state after an undisturbed polling cycle, without the idling. -/
def cycleEnd (s : State) : State :=
  published s.params.publishOrder.toList (compensatePressure (compensateTemp (sampled s)))

/-- One polling cycle with nothing to disturb it. -/
theorem runUops_pollUops {s : State} (hs : s.hung = false) (hu : Undisturbed s) (hcs : s.cs = .deasserted)
    (hc : clockGives 80 s = true) : runUops (pollUops s.params) s = .next (cycleEnd s) := by
  have frames := runUops_frames hs hu hcs hc
  have hs0 : (sampled s).hung = false := by simp [hs]
  have hu0 : Undisturbed (sampled s) := hu.of_eq (by simp [clockAfter])
  have hs1 : (compensateTemp (sampled s)).hung = false := by simp [hs]
  have hu1 : Undisturbed (compensateTemp (sampled s)) := hu0.of_eq (by simp)
  have hs2 : (compensatePressure (compensateTemp (sampled s))).hung = false := by simp [hs]
  have hu2 : Undisturbed (compensatePressure (compensateTemp (sampled s))) := hu1.of_eq (by simp)
  have compt : runUop .compt (sampled s) = .next (compensateTemp (sampled s)) := andThen_of_running hs1
  have compp : runUop .compp (compensateTemp (sampled s)) = .next (compensatePressure (compensateTemp (sampled s))) :=
    andThen_of_running hs2
  rw [pollUops, List.append_assoc _ _ (List.map _ _), runUops_append frames hs0 hu0]
  exact (runUops_cons compt hs1 hu1).trans ((runUops_cons compp hs2 hu2).trans (runUops_pubs _ hs2 hu2))

/-- `POLL` with nothing to disturb it: the cycle, and the listed idling, which changes nothing but the list. -/
theorem exec_poll_undisturbed {s : State} (hs : s.hung = false) (hu : Undisturbed s) (hcs : s.cs = .deasserted)
    (hc : clockGives 80 s = true) : exec .poll s = .next (cycleEnd (setIdles (idleRest s.sched.idles) s)) := by
  have hs' : (setIdles (idleRest s.sched.idles) s).hung = false := hs
  have hu' : Undisturbed (setIdles (idleRest s.sched.idles) s) := hu.of_eq (by simp)
  have hc' : clockGives 80 (setIdles (idleRest s.sched.idles) s) = true := hc
  have cycle := runUops_pollUops hs' hu' hcs hc'
  have hs1 : (cycleEnd (setIdles (idleRest s.sched.idles) s)).hung = false := by simp [cycleEnd, hs]
  have hu1 : Undisturbed (cycleEnd (setIdles (idleRest s.sched.idles) s)) := hu.of_eq (by simp [cycleEnd, clockAfter])
  exact (runUops_append cycle hs1 hu1).trans (runUops_idles _ hs1 hu1)

@[simp] theorem cycleEnd_frame (s : State) :
    (cycleEnd s).t1 = s.t1 ∧ (cycleEnd s).t2 = s.t2 ∧ (cycleEnd s).t3 = s.t3 ∧ (cycleEnd s).p1 = s.p1 ∧
    (cycleEnd s).p2 = s.p2 ∧ (cycleEnd s).p3 = s.p3 ∧ (cycleEnd s).adct = (sampled s).adct ∧
    (cycleEnd s).adcp = (sampled s).adcp ∧ (cycleEnd s).mseq = s.mseq ∧ (cycleEnd s).scan = s.scan ∧
    (cycleEnd s).ctx = s.ctx ∧ (cycleEnd s).ie = s.ie ∧ (cycleEnd s).tickPend = s.tickPend ∧
    (cycleEnd s).trun = s.trun ∧ (cycleEnd s).cmp = s.cmp ∧ (cycleEnd s).cs = .deasserted ∧ (cycleEnd s).env = [] ∧
    (cycleEnd s).latch = s.latch ∧ (cycleEnd s).dout = s.dout ∧ (cycleEnd s).hung = s.hung ∧
    (cycleEnd s).sched = clockAfter 80 s := by
  simp [cycleEnd]

/-- A cycle's events: those of its three frames, then one for each publication (R237). -/
theorem cycleEnd_hist (s : State) : (cycleEnd s).hist =
    s.hist ++ configTrace s.draws ++ tripleTrace s.params 0xFA#8 (s.draws + 2) ++
      tripleTrace s.params 0xFB#8 (s.draws + 6) ++
      s.params.publishOrder.toList.map fun k => .pub k ((cycleEnd s).results.get k) := by
  simp [cycleEnd]

/-- The temperature digits of a cycle are those of the sample it has read (R170, R174). -/
theorem cycleEnd_temperature {s : State}
    (h : tempInDomain (sampled s).adct.value s.t1.value s.t2.value s.t3.value) :
    ((cycleEnd s).results.tTens, (cycleEnd s).results.tOnes, (cycleEnd s).results.tTenths) =
      tempDigits (tempFine (sampled s).adct.value s.t1.value s.t2.value s.t3.value) :=
  if_pos (c := tempInDomain (sampled s).adct.value (sampled s).t1.value (sampled s).t2.value (sampled s).t3.value) h

/-- So are the pressure digits (R180, R181). -/
theorem cycleEnd_pressure {s : State} (h : 6552 ≤ (sampled s).adcp.value.toNat) :
    ((cycleEnd s).results.pHundreds, (cycleEnd s).results.pTens, (cycleEnd s).results.pOnes) =
      pressureDigits (pressure (sampled s).adcp.value) :=
  if_pos (c := 0 ≤ pressure (sampled s).adcp.value) ((pressure_nonneg_iff _).2 h)

/-- With an order that names every digit, a cycle leaves none with its old value (R238). -/
theorem cycleEnd_digits {s : State} (h : s.params.publishesEach) : (cycleEnd s).digits = (cycleEnd s).results := by
  obtain ⟨h0, h1, h2, h3, h4, h5⟩ := h
  have named (k : Digit) : k ∈ s.params.publishOrder.toList := by cases k <;> assumption
  exact Digits.eq_of_get_eq fun k => by simp [cycleEnd, Digits.get_update, named k]

/-- A cycle reads only samples it has written itself, and the coefficients `T1` to `T3` (R303). -/
theorem cycleEnd_misreads {s : State} (h1 : s.t1.written = true) (h2 : s.t2.written = true) (h3 : s.t3.written = true) :
    (cycleEnd s).misreads = s.misreads := by
  simp [cycleEnd, tempMisreads, pressureMisreads, h1, h2, h3]

/-- Settles O50: every clause reads a field of `cycleEnd`. -/
theorem pollRefreshesTheDigits : Obligations.PollRefreshesTheDigits := by
  intro s hs hu hcs hc each r
  have hist := cycleEnd_hist (setIdles (idleRest s.sched.idles) s)
  have digits := cycleEnd_digits (s := setIdles (idleRest s.sched.idles) s) each
  have temperature := @cycleEnd_temperature (setIdles (idleRest s.sched.idles) s)
  have pressure := @cycleEnd_pressure (setIdles (idleRest s.sched.idles) s)
  have misreads := @cycleEnd_misreads (setIdles (idleRest s.sched.idles) s)
  refine ⟨_, _, exec_poll_undisturbed hs hu hcs hc, ?_, ?_, digits, ?_, ?_, hist, rfl, ?_⟩
  · simp [r]
  · simp [r]
  · simpa using temperature
  · simpa using pressure
  · simpa [hs] using misreads

end Sys2Proof.Machine

namespace Sys2Proof.Machine

open Sys2Proof

/-! ### `BOOT` and `POLL` as steps of the fixed sequence (R232, R233, R240, R241)

As one operation each runs its µops with `MSEQ` and the idling choices left alone; the steps run the same µops and move through
`MSEQ`, taking an idling choice where R240 has one. No µop reads either, so the two runs differ in them only. -/

/-- The state at another position, with the idling choices of another environment. -/
def place (m : MSeq) (e : Schedule) (s : State) : State :=
  { s with mseq := m, sched := { s.sched with idles := e.idles, idlesOnward := e.idlesOnward } }

theorem place_of_idles {m : MSeq} {e : Schedule} {s : State} (h : s.sched.idles = e.idles)
    (k : s.sched.idlesOnward = e.idlesOnward) : place m e s = { s with mseq := m } := by
  rw [place, ← h, ← k]

section

variable (m : MSeq) (e : Schedule) {u : Uop} {s t : State}

theorem xfer_place (b : Byte) (s : State) : xfer b (place m e s) = place m e (xfer b s) := by
  cases h : clockGives 8 s with
  | true =>
    have h' : clockGives 8 (place m e s) = true := h
    rw [xfer_eq h, xfer_eq h']; rfl
  | false =>
    have h' : clockGives 8 (place m e s) = false := h
    rw [xfer_eq_of_stalled h, xfer_eq_of_stalled h']; rfl

theorem uopEffect_place (h : uopEffect u s = .next t) : uopEffect u (place m e s) = .next (place m e t) := by
  cases u with
  | csa => obtain ⟨hcs, rfl⟩ := execCsa_next h; exact execCsa_of_deasserted (s := place m e s) hcs
  | csd _ => obtain ⟨hcs, rfl⟩ := execCsd_next h; exact execCsd_of_asserted (s := place m e s) hcs
  | latd => cases h; rfl
  | lata => cases h; rfl
  | xfer b _ => cases h; exact congrArg _ (xfer_place m e b s)
  | compt => cases h; rfl
  | compp => cases h; rfl
  | pub k => cases (execPub_selectorByte k s).symm.trans h; exact execPub_selectorByte k (place m e s)
  | tcfg =>
    obtain ⟨hz, hpos, hfits, rfl⟩ := execTcfg_next h
    exact execTcfg_of_timerOk (s := place m e s) ⟨Nat.pos_of_ne_zero hz, hpos, hfits⟩
  | arm => cases h; rfl
  | idle => cases h; rfl

theorem capture_place (u : Uop) (s : State) : capture u (place m e s) = place m e (capture u s) := by
  unfold capture
  split
  · rename_i k; cases k <;> rfl
  · rename_i c; cases c <;> rfl
  · rename_i c; cases c <;> rfl
  · rfl

theorem runUop_place (h : runUop u s = .next t) : runUop u (place m e s) = .next (place m e t) := by
  obtain ⟨v, hv, ⟨hh, rfl⟩ | ⟨hr, rfl⟩⟩ := runUop_next h
  · rw [runUop, uopEffect_place m e hv]
    exact andThen_of_hung hh
  · rw [runUop, uopEffect_place m e hv, ← capture_place]
    exact andThen_of_running hr

/-- The advance moves to the next position and, where R240 has one, past the choice taken. -/
theorem advanceMseq_place (s : State) : advanceMseq (place m e s) =
    place (mseqNext e.nextIdle m) (if choosesIdle m then e.afterIdle else e) s := by
  obtain ⟨arrivals, onward, clock, idles, idlesOnward⟩ := e
  cases hm : choosesIdle m with
  | false => simp [advanceMseq, place, hm, Schedule.nextIdle]
  | true => cases idles <;> simp [advanceMseq, place, hm, Schedule.nextIdle, Schedule.afterIdle]

/-- One step of the placed state, where the µop at its position is about to run undisturbed. -/
theorem step_place (hs : s.hung = false) (hu : Undisturbed s) (hb : s.program.bytes = []) (hc : s.ctx = .main)
    (h : runUop (mseqUop s.params m) s = .next t) (ht : t.hung = false) : step (place m e s) =
      .next (place (mseqNext e.nextIdle m) (if choosesIdle m then e.afterIdle else e) t) := by
  have quiet : NoArrivals (place m e s) := hu.1
  have unready : irqReady (place m e s) = false := hu.2
  have ran : runUop (mseqUop (place m e s).params (place m e s).mseq) (place m e s) = .next (place m e t) :=
    runUop_place m e h
  have running : (place m e t).hung = false := ht
  have own := runNext_eq_mainUop (s := place m e s) hb hc
  have moved : blockMove (place m e s) = runNext (place m e s) := by
    have hs' : (place m e s).hung = false := hs
    simp [blockMove, hs', unready]
  rw [step_of_noArrivals quiet, moved, own, mainUop, ran, andThen_of_running running, advanceMseq_place]

end

/-- Only `ARM` sets `IE`, and only a hung transfer leaves it cleared (R123, R275). -/
theorem runUop_ie {u : Uop} {s t : State} (hu : u ≠ .arm) (h : runUop u s = .next t) (ht : t.hung = false) : t.ie = s.ie := by
  obtain ⟨v, hv, ⟨hh, rfl⟩ | ⟨hr, rfl⟩⟩ := runUop_next h
  · simp [hh] at ht
  suffices kept : v.ie = s.ie by simpa using kept
  cases u with
  | csa => obtain ⟨-, rfl⟩ := execCsa_next hv; rfl
  | csd _ => obtain ⟨-, rfl⟩ := execCsd_next hv; rfl
  | latd => cases hv; rfl
  | lata => cases hv; rfl
  | xfer b _ =>
    cases hv
    obtain ⟨-, -, ie, -⟩ | ⟨-, hung, -⟩ := xfer_cases b s
    · exact ie
    · simp [hung] at hr
  | compt => cases hv; rfl
  | compp => cases hv; rfl
  | pub k => cases (execPub_selectorByte k s).symm.trans hv; rfl
  | tcfg => obtain ⟨-, -, -, rfl⟩ := execTcfg_next hv; rfl
  | arm => exact absurd rfl hu
  | idle => cases hv; rfl

theorem run_succ_of_step {s t : State} (h : step s = .next t) (n : Nat) :
    (Sys2Proof.core.run (n + 1) s : Result) = Sys2Proof.core.run n t := by
  have stepped : Sys2Proof.core.step s = .next t := h
  simp only [Host.Core.run, stepped]

/-- A walk of `MSEQ` to `POLL0`: the µops at the positions passed, from a position and an environment's idling choices to those
left. `ARM`, after which a pending tick has priority, can only be its last µop. -/
inductive Walk (p : Params) : MSeq → Schedule → List Uop → Schedule → Prop where
  | done (e : Schedule) : Walk p (.poll 0) e [] e
  | step {m : MSeq} {e e' : Schedule} {us : List Uop} (arm_last : mseqUop p m = .arm → us = [])
      (rest : Walk p (mseqNext e.nextIdle m) (if choosesIdle m then e.afterIdle else e) us e') :
      Walk p m e (mseqUop p m :: us) e'

/-- A list of µops with nothing to disturb it is, from where it is a walk, what as many steps do. -/
theorem Walk.run {p : Params} {m : MSeq} {e e' : Schedule} {us : List Uop} (w : Walk p m e us e') {s t : State}
    (hp : s.params = p) (hs : s.hung = false) (hu : us ≠ [] → Undisturbed s) (hb : s.program.bytes = [])
    (hc : s.ctx = .main) (h : runUops us s = .next t) (ht : t.hung = false) :
    (Sys2Proof.core.run us.length (place m e s) : Result) = .next (place (.poll 0) e' t) := by
  induction w generalizing s with
  | done e => cases h; rfl
  | @step m e e' us arm_last rest ih =>
    obtain ⟨v, hv, ⟨hh, rfl⟩ | ⟨hr, hk⟩⟩ := andThen_next h
    · simp [hh] at ht
    subst hp
    have quiet := hu (List.cons_ne_nil _ _)
    obtain ⟨params, program, -, ctx, pend, arrivals, onward, -, -⟩ := runUop_frame hv
    have later (hne : us ≠ []) : Undisturbed v :=
      quiet.of_eq ⟨arrivals, onward, ctx, runUop_ie (mt arm_last hne) hv hr, pend⟩
    have remaining : runUops us v = .next t := by
      cases us with
      | nil => exact hk
      | cons u us => rwa [runUops_cons hv hr (later (List.cons_ne_nil u us))] at h
    refine (run_succ_of_step (step_place m e hs quiet hb hc hv hr) us.length).trans ?_
    exact ih params hr later (program ▸ hb) (ctx.trans hc) remaining

/-! #### The boot phase -/

/-- `ARM` stands at `BOOT22` (R232). -/
theorem eq_of_bootUop_eq_arm {p : Params} {i : Fin 23} (h : mseqUop p (.boot i) = .arm) : i = 22 := by
  have erased : (mseqUop Params.default (.boot i)).erase = .arm := by rw [← mseqUop_erase p, h]; rfl
  clear h
  revert i
  decide

/-- From each position of the boot phase the rest of it leads to `POLL0`. -/
theorem walk_boot (p : Params) (e : Schedule) (i : Fin 23) : Walk p (.boot i) e ((bootUops p).drop i) e := by
  induction i using Fin.reverseInduction with
  | last => exact .step (fun _ => rfl) (.done e)
  | cast i ih =>
    rw [List.drop_eq_getElem_cons (by rw [bootUops_length]; exact i.castSucc.isLt)]
    refine Walk.step (m := .boot i.castSucc) (fun ha => ?_) ?_
    · exact absurd (eq_of_bootUop_eq_arm ha) (Fin.castSucc_lt_last i).ne
    · have next : mseqNext e.nextIdle (.boot i.castSucc) = .boot i.succ := dif_pos (Nat.succ_lt_succ i.isLt)
      rw [next]
      exact ih

/-- Settles O51: `BOOT` runs undisturbed while the interrupt is masked, and its µops are the walk from `BOOT0`. -/
theorem bootIsTwentyThreeSteps : Obligations.BootIsTwentyThreeSteps := by
  intro s hs hu hb hc hm hie hcs hclock hp
  have ends := exec_boot_undisturbed hs hu hcs hclock hp
  have steps := (walk_boot s.params s.sched 0).run rfl hs (fun _ => hu) hb hc ends hs
  have start : place (.boot 0) s.sched s = s := by rw [← hm]; rfl
  rw [start] at steps
  exact ⟨bootEnd s, ends, steps⟩

/-! #### The polling cycle -/

/-- The listed idling leads to `POLL0`, if it ends (R239, R243). -/
theorem walk_idle (p : Params) {e : Schedule} (ends : false ∈ e.idles ∨ e.idlesOnward = .never) :
    Walk p (idleOrPoll e.nextIdle) e.afterIdle (List.replicate (idleCount e.idles) .idle)
      { e with idles := idleRest e.idles } := by
  obtain ⟨arrivals, onward, clock, idles, idlesOnward⟩ := e
  induction idles with
  | nil =>
    obtain rfl : idlesOnward = .never := ends.resolve_left (List.not_mem_nil)
    exact .done _
  | cons b r ih =>
    cases b with
    | false => exact .done _
    | true => exact .step (m := .idle) nofun (ih (by simpa using ends))

/-- No position of a polling cycle carries `ARM` (R233). -/
theorem pollUops_ne_arm (p : Params) : ∀ u ∈ pollUops p, u ≠ .arm := by
  simp [pollUops, configUops, readtripleUops, tripleFrame]

/-- From each position of a polling cycle the rest of it and the listed idling lead to `POLL0`. -/
theorem walk_poll (p : Params) {e : Schedule} (ends : false ∈ e.idles ∨ e.idlesOnward = .never) (i : Fin 24) :
    Walk p (.poll i) e ((pollUops p).drop i ++ List.replicate (idleCount e.idles) .idle)
      { e with idles := idleRest e.idles } := by
  have no_arm (i : Fin 24) : mseqUop p (.poll i) ≠ .arm := pollUops_ne_arm p _ (List.getElem_mem _)
  induction i using Fin.reverseInduction with
  | last =>
    rw [List.drop_eq_getElem_cons (by rw [pollUops_length]; decide),
      List.drop_eq_nil_of_le (by rw [pollUops_length]; decide)]
    exact .step (m := .poll (Fin.last 23)) (fun ha => absurd ha (no_arm _)) (walk_idle p ends)
  | cast i ih =>
    rw [List.drop_eq_getElem_cons (by rw [pollUops_length]; exact i.castSucc.isLt)]
    refine Walk.step (m := .poll i.castSucc) (fun ha => absurd ha (no_arm _)) ?_
    have next : mseqNext e.nextIdle (.poll i.castSucc) = .poll i.succ := dif_pos (Nat.succ_lt_succ i.isLt)
    have listed : choosesIdle (.poll i.castSucc) = false := decide_eq_false (by simp; omega)
    rw [next, listed]
    exact ih

/-- Settles O52: the µops of `POLL` are the walk from `POLL0` through the cycle and the listed idling. -/
theorem pollIsOneCycleOfSteps : Obligations.PollIsOneCycleOfSteps := by
  intro s hs hu ends hb hc hm hcs hclock
  have runs := exec_poll_undisturbed hs hu hcs hclock
  have quiet : Undisturbed (setIdles (idleRest s.sched.idles) s) := hu.of_eq (by simp)
  have steps := (walk_poll s.params ends 0).run (s := setIdles (idleRest s.sched.idles) s) rfl hs (fun _ => quiet) hb hc
    runs (by simp [hs])
  have start : place (.poll 0) s.sched (setIdles (idleRest s.sched.idles) s) = s := by rw [← hm]; rfl
  have count : ((pollUops s.params).drop (0 : Fin 24) ++ List.replicate (idleCount s.sched.idles) Uop.idle).length =
      24 + idleCount s.sched.idles := by simp [pollUops_length]
  rw [start, count, place_of_idles (by simp [clockAfter]) (by simp [clockAfter])] at steps
  exact ⟨_, runs, steps⟩

end Sys2Proof.Machine

namespace Sys2Proof.Machine

open Sys2Proof

/-! ### The compare-match (R264, R282) -/

theorem step_of_arrival {s : State} (ha : s.sched.nextArrival = true) : step s = .next (compareMatch (takeArrival s)) :=
  if_pos ha

theorem compareMatch_of_running {s : State} (h : s.trun = true) : compareMatch s = { s with tickPend := true } := by
  simp [compareMatch, h]

theorem compareMatch_of_stopped {s : State} (h : s.trun = false) : compareMatch s = s := by
  have kept : (s.trun || s.tickPend) = s.tickPend := by simp [h]
  rw [compareMatch, kept]

/-- Settles O37: the step is a compare-match after the environment's choice, and the timer decides what it does. -/
theorem compareMatchSetsPending : Obligations.CompareMatchSetsPending := by
  intro s ha
  rw [step_of_arrival ha]
  exact ⟨fun h => congrArg _ (compareMatch_of_running (s := takeArrival s) h),
    fun h => congrArg _ (compareMatch_of_stopped (s := takeArrival s) h)⟩

/-! ### Entry, return and a run of the handler (R267 to R272) -/

theorem runIsr_of_returning {s : State} (h : (tick (irqEnter s)).hung = false) :
    runIsr s = irqReturn (tick (irqEnter s)) := by
  simp [runIsr, h]

theorem runIsr_of_hanging {s : State} (h : (tick (irqEnter s)).hung = true) : runIsr s = tick (irqEnter s) :=
  if_pos h

/-- Settles O38: entry and return are the updates written out; the handler's one `TICK` decides whether it returns. -/
theorem interruptEntryAndReturn : Obligations.InterruptEntryAndReturn := fun s =>
  ⟨rfl, rfl, tick (irqEnter s), rfl, runIsr_of_returning, runIsr_of_hanging⟩

/-- When no compare-match comes, a step of a running block with a ready interrupt is a run of the handler (R241 (2), R266). -/
theorem step_eq_runIsr {s : State} (hs : s.hung = false) (hr : irqReady s = true) (ha : s.sched.nextArrival = false) :
    step s = .next (runIsr (takeArrival s)) := by
  have ready : irqReady (takeArrival s) = true := hr
  simp [step, blockMove, ha, hs, ready]

/-- The handler in scan state 9 shows nothing (R222). -/
theorem runIsr_of_nine {s : State} (hs : s.hung = false) (hk : s.scan = 9) :
    (runIsr s).hist = s.hist ++ [.irqEnter] ++ [] ++ [.irqReturn] ∧ (runIsr s).latch = s.latch ∧
    (runIsr s).dout = s.dout ∧ (runIsr s).dsr = s.dsr ∧ (runIsr s).env = s.env := by
  have ran : runIsr s = irqReturn { irqEnter s with scan := s.scan + 1 } := runIsr_eq (by rw [hk]; rfl) hs
  simp [ran]

/-- The handler in every other scan state sends one glyph frame (R206). -/
theorem runIsr_of_ne_nine {s : State} (hs : s.hung = false) (hk : s.scan ≠ 9) (hc : clockGives 8 s = true) :
    ∃ g x, (runIsr s).dout = g ∧ (runIsr s).hist = s.hist ++ [.irqEnter] ++
      [.latch .deasserted, .xfer g x, .latch .asserted, .commit g] ++ [.irqReturn] := by
  obtain ⟨g, n, -, action⟩ := scanAction_of_ne_nine hk (irqEnter s)
  have ran := runIsr_eq (action.trans (showGlyph_eq hc hs)) hs
  exact ⟨g, nextReply { irqEnter s with draws := n }, by rw [ran]; simp [glyphFrameEnd], by rw [ran]; simp [glyphFrameEnd]⟩

/-- With the clock for a byte the handler returns from any scan state (R272). -/
theorem runIsr_hung_of_clock {s : State} (hs : s.hung = false) (hc : clockGives 8 s = true) : (runIsr s).hung = false := by
  have ticked := (tickIn_completes (k := s.scan) (s := irqEnter s) hc hs).1
  rw [runIsr_of_returning ticked]
  exact ticked

/-- Settles O39: the step is the handler's run on the state found, which returns; its events are those of its scan state. -/
theorem readyInterruptIsTaken : Obligations.ReadyInterruptIsTaken := by
  intro s hs ha hctx hie hpend hc t
  have ran : t = runIsr (takeArrival s) := rfl
  clear_value t
  subst ran
  have ready : irqReady s = true := by simp [irqReady, hctx, hie, hpend]
  have clock : clockGives 8 (takeArrival s) = true := by simpa [clockGives] using hc
  have returns := runIsr_hung_of_clock (s := takeArrival s) hs clock
  obtain ⟨-, ctx, ie, mseq, scan, pend, -⟩ | ⟨hung, -⟩ := runIsr_cases (takeArrival s) hs
  case inr => rw [returns] at hung; cases hung
  have advanced : (runIsr (takeArrival s)).scan.val = (s.scan.val + 1) % 10 := by rw [scan, Fin.val_add]; rfl
  refine ⟨step_eq_runIsr hs ready ha, ?_⟩
  by_cases hk : s.scan = 9
  · obtain ⟨hist, latch, dout, dsr, env⟩ := runIsr_of_nine (s := takeArrival s) hs hk
    refine ⟨[], returns, ctx, ie.trans hie, pend, mseq, advanced, hist, ?_⟩
    simp [hk, latch, dout, dsr, env]
  · obtain ⟨g, x, dout, hist⟩ := runIsr_of_ne_nine (s := takeArrival s) hs hk clock
    refine ⟨_, returns, ctx, ie.trans hie, pend, mseq, advanced, hist, ?_⟩
    simp [hk, dout]

/-! ### The system operations (R274, R275) -/

/-- Settles O40: `TCFG` meets its two requirements, or is refused by the first that fails. -/
theorem timerConfiguration : Obligations.TimerConfiguration := by
  intro s
  refine ⟨fun hz low high => execTcfg_of_timerOk ⟨hz, low, high⟩, fun hz => if_pos hz, fun hz misfit => ?_⟩
  have outside : ¬ (1 ≤ s.params.timerCount ∧ s.params.timerCount ≤ 2 ^ s.params.cmpW) := by
    unfold Params.timerCount
    omega
  exact (if_neg hz.ne').trans (if_neg outside)

/-- Settles O41: `ARM` is `IE <- 1`, the last of the three conditions for taking the interrupt. -/
theorem armEnablesTheInterrupt : Obligations.ArmEnablesTheInterrupt := fun s =>
  ⟨rfl, fun hctx hpend => by simp [irqReady, hctx, hpend]⟩

/-! ### What `MAIN`'s sequence leaves to the scanner (R277, R209, R35) -/

theorem bootUops_ne_latch (p : Params) : ∀ u ∈ bootUops p, u ≠ .latd ∧ u ≠ .lata := by
  simp [bootUops, loadcalUops, readpairUops, pairFrame]

theorem pollUops_ne_latch (p : Params) : ∀ u ∈ pollUops p, u ≠ .latd ∧ u ≠ .lata := by
  simp [pollUops, configUops, readtripleUops, tripleFrame]

/-- No position of the fixed sequence carries `LATD` or `LATA` (R232, R233). -/
theorem mseqUop_ne_latch (p : Params) (m : MSeq) : mseqUop p m ≠ .latd ∧ mseqUop p m ≠ .lata := by
  cases m with
  | boot i => exact bootUops_ne_latch p _ (List.getElem_mem _)
  | poll i => exact pollUops_ne_latch p _ (List.getElem_mem _)
  | idle => exact ⟨nofun, nofun⟩

/-- A µop never writes `SCAN`; only `LATD` and `LATA` reach the display, and only `PUB` writes a digit (R277). -/
theorem uopEffect_scanner {u : Uop} {s t : State} (h : uopEffect u s = .next t) :
    t.scan = s.scan ∧ (u ≠ .latd ∧ u ≠ .lata → t.latch = s.latch ∧ t.dout = s.dout) ∧
    ((∀ k, u ≠ .pub k) → t.digits = s.digits) := by
  cases u with
  | csa => obtain ⟨-, rfl⟩ := execCsa_next h; simp
  | csd _ => obtain ⟨-, rfl⟩ := execCsd_next h; simp
  | latd => cases h; simp
  | lata => cases h; simp
  | xfer b _ => cases h; simp
  | compt => cases h; simp
  | compp => cases h; simp
  | pub k => cases (execPub_selectorByte k s).symm.trans h; simp
  | tcfg => obtain ⟨-, -, -, rfl⟩ := execTcfg_next h; simp
  | arm => cases h; simp
  | idle => cases h; simp

/-- `MAIN`'s capture of a result writes none of them (R108). -/
@[simp] theorem capture_scanner (u : Uop) (s : State) :
    (capture u s).scan = s.scan ∧ (capture u s).latch = s.latch ∧ (capture u s).dout = s.dout ∧
    (capture u s).digits = s.digits := by
  unfold capture
  split
  · rename_i k; cases k <;> repeat' constructor
  · rename_i c; cases c <;> repeat' constructor
  · rename_i c; cases c <;> repeat' constructor
  · repeat' constructor

/-- Settles O43: the µop is no `LATD` or `LATA`, and the capture and the advance after it write none of the four. -/
theorem mainNeverTouchesTheScanner : Obligations.MainNeverTouchesTheScanner := by
  intro s t h
  rw [mainUop_eq] at h
  obtain ⟨v, hv, after⟩ := andThen_next h
  obtain ⟨scan, display, digits⟩ := uopEffect_scanner hv
  obtain ⟨latch, dout⟩ := display (mseqUop_ne_latch s.params s.mseq)
  have same : t.scan = v.scan ∧ t.latch = v.latch ∧ t.dout = v.dout ∧ t.digits = v.digits := by
    obtain ⟨-, rfl⟩ | ⟨-, advanced⟩ := after
    · exact ⟨rfl, rfl, rfl, rfl⟩
    · cases advanced; simp
  obtain ⟨scan', latch', dout', digits'⟩ := same
  refine ⟨scan'.trans scan, latch'.trans latch, dout'.trans dout, fun changed => ?_⟩
  by_contra noPub
  exact changed (digits'.trans (digits fun k hk => noPub ⟨k, hk⟩))

end Sys2Proof.Machine

namespace Sys2Proof.Machine

open Sys2Proof

/-! ### A hung block (R311) -/

/-- Every step of a hung block is the environment's choice, and a compare-match if that was the choice. -/
theorem step_of_hung {s : State} (hs : s.hung = true) :
    step s = .next { s with
      tickPend := (s.sched.nextArrival && s.trun) || s.tickPend, sched := s.sched.afterArrival } := by
  cases ha : s.sched.nextArrival with
  | true => exact step_of_arrival ha
  | false => simp [step, ha, blockMove, hs, takeArrival]

/-- Settles O10: by induction on the steps; the first one's choice is the environment's choice 0, and the choices of the others
are those of the state it leaves, moved up by one. -/
theorem hungBlockStaysHung : Obligations.HungBlockStaysHung := by
  intro n
  induction n with
  | zero => exact fun s _ => ⟨s, rfl, rfl, by simp⟩
  | succ n ih =>
    intro s hs
    obtain ⟨t, run, same, pending⟩ := ih { s with
      tickPend := (s.sched.nextArrival && s.trun) || s.tickPend, sched := s.sched.afterArrival } hs
    refine ⟨t, (run_succ_of_step (step_of_hung hs) n).trans run, same, pending.trans ?_⟩
    simp only [Nat.exists_lt_succ_left, Function.iterate_succ_apply, Function.iterate_zero, id, Bool.or_eq_true,
      Bool.and_eq_true]
    tauto

/-! ### A tick inside an open envelope (R313) -/

/-- A byte other than `DUMMY` after the first makes an envelope foreign: every reply from then on is free (R66). -/
theorem sensorReply_of_foreign {p : Params} {b c : Byte} {ds : List Byte} (hb : b ∈ ds) (foreign : b ≠ p.dummy)
    (moment : Nat) : sensorReply p (c :: ds) moment = Config.anyByte moment := by
  refine (sensorReplyContract p moment).2 _ fun c' k _ clean => foreign ?_
  obtain ⟨-, copies⟩ := List.cons.inj clean
  exact List.eq_of_mem_replicate (copies ▸ hb)

/-- A run of the handler that sends its glyph while `CS` is asserted appends it to `ENV` (R70, R313). -/
theorem runIsr_env {s : State} (hs : s.hung = false) (hk : s.scan ≠ 9) (hc : clockGives 8 s = true)
    (hcs : s.cs = .asserted) : (runIsr s).env = s.env ++ [(runIsr s).dout] := by
  obtain ⟨g, n, -, action⟩ := scanAction_of_ne_nine hk (irqEnter s)
  rw [runIsr_eq (action.trans (showGlyph_eq hc hs)) hs]
  simp [glyphFrameEnd, hcs]

/-- Settles O23: the step is a run of the handler, which returns with its glyph at the end of `ENV`; a byte that is not `DUMMY`,
the glyph in a clean envelope and the command after the glyph in an empty one, makes the envelope foreign. -/
theorem tickInsideAnEnvelope : Obligations.TickInsideAnEnvelope := by
  intro s hs ha hr hcs hc hk
  have clock : clockGives 8 (takeArrival s) = true := by simpa [clockGives] using hc
  have sent : (runIsr (takeArrival s)).env = s.env ++ [(runIsr (takeArrival s)).dout] := runIsr_env hs hk clock hcs
  have params : (runIsr (takeArrival s)).params = s.params := by simp
  refine ⟨runIsr (takeArrival s), step_eq_runIsr hs hr ha, runIsr_hung_of_clock hs clock, by simpa using hcs, sent,
    fun c k clean => ⟨fun glyph ds moment => ?_, fun glyph => ?_⟩, fun empty c ds moment command => ?_⟩
  · rw [sent, params, clean]
    exact sensorReply_of_foreign (by simp) glyph moment
  · rw [sent, clean, glyph, List.cons_append, ← List.replicate_succ']
  · rw [sent, params, empty]
    exact sensorReply_of_foreign (b := c) (by simp) command moment

/-! ### A tick among the publications (R312) -/

/-- The handler in scan state 0 shows the temperature tens that stand there (R213). -/
theorem runIsr_dout_of_zero {s : State} (hs : s.hung = false) (hk : s.scan = 0) (hc : clockGives 8 s = true)
    (hd : s.digits.tTens.toNat < 12) : (runIsr s).dout = s.params.glyph[s.digits.tTens.toNat] := by
  have action : scanAction s.scan (irqEnter s) = showDigit s.digits.tTens (irqEnter s) := by rw [hk]; rfl
  have shown : showDigit s.digits.tTens (irqEnter s) = glyphFrameEnd s.params.glyph[s.digits.tTens.toNat] (irqEnter s) :=
    (showDigit_of_lt hd _).trans (showGlyph_eq hc hs)
  rw [runIsr_eq (action.trans shown) hs]
  rfl

/-- Settles O46: the publications replace exactly the digits listed and hang nothing, so a tick in state 0 shows what stands
there. -/
theorem tornUpdateShowsOldAndNew : Obligations.TornUpdateShowsOldAndNew := by
  intro s t ks hs hu ran
  cases (runUops_pubs ks hs hu).symm.trans ran
  exact ⟨fun d => Digits.get_update s.results ks d s.digits, runIsr_dout_of_zero (s := published ks s) hs⟩

/-! ### The fixed sequence at reset (R301) -/

/-- `BOOT0` asks for nothing that reset does not give: `CS` deasserted, interrupts and timer off, no register written yet. -/
theorem sequenceRunning_resetWith (p : Params) (v : PowerOn) (e : Schedule) : SequenceRunning (State.resetWith p v e) where
  ctx_main := rfl
  latch_rest := rfl
  cs_envelope := ⟨nofun, nofun⟩
  ie_armed := ⟨nofun, nofun⟩
  trun_set := ⟨nofun, nofun⟩
  first_pair := nofun
  second_pair := nofun
  third_pair := nofun
  temperature_sample := nofun
  pressure_sample := nofun

/-- Settles O60: nothing is placed or misread at reset, and `BOOT0` is in order; only the timer's parameters need the
premise. -/
theorem fixedSequenceStartsInOrder : Obligations.FixedSequenceStartsInOrder := fun p v e timer =>
  { nothing_placed := rfl
    timer_ok := timer
    nothing_misread := rfl
    in_order := .inr (sequenceRunning_resetWith p v e) }

end Sys2Proof.Machine
